-- ==== Sys2Proof/Word.lean ====
section
/-! DEFINITION. The words of the LT620: the widths its records, messages and registers are made of. -/

namespace Sys2Proof

/-- One byte of the Exchange RAM, of a message or of an acknowledgement. -/
abbrev Byte := BitVec 8

/-- A 16-bit field: a lane value, a tag, the notice write count (R1, R187, R175). -/
abbrev Half := BitVec 16

/-- A 32-bit word, the unit in which host and part access the Exchange RAM (R155). -/
abbrev Word := BitVec 32

end Sys2Proof
end

