-- ==== Sys2Proof/Config.lean ====
section
/-! DEFINITION. The values the spec leaves open (free values: constants without a body, so that no proof
can see what they are) and the sizes the part fixes. -/

namespace Sys2Proof.Config

/-- FREE VALUE. How many image words a TABLE_DUMP has written by the moment a host access or a soft reset meets it (R75, R78:
they can come while the dump is writing, and the spec gives no rate at which it writes).
Applied to `State.freeIndex`, so that each use is a fresh value. -/
opaque dumpProgress : Nat → Nat

/-- FREE VALUE. How many words of a frame record step 6 has written by the moment a soft reset cuts it off (R179: the words
already written keep their new values). Applied to `State.freeIndex`. -/
opaque captureCut : Nat → Nat

/-- Words of the Exchange RAM: 8 KiB of 32-bit words (R155, R181). -/
def ramWords : Nat := 2048

end Sys2Proof.Config
end

