-- ==== Sys2Proof/Machine/Arith.lean ====
section
/-! DEFINITION. The arithmetic conventions of the spec (00_scope.md 5.3): truncation toward zero, saturation, clamping; and
the packing of fields into words (00_scope.md 5.4, R182). -/

namespace Sys2Proof.Machine

/-- `trunc(a / b)`: division rounded toward zero, for negative values as well as positive ones (00_scope.md 5.3). -/
def truncDiv (a b : Int) : Int := a.tdiv b

/-- A value brought into `lo..hi` (00_scope.md 5.3). -/
def clampInt (lo hi v : Int) : Int := if v < lo then lo else if hi < v then hi else v

/-- A field brought into `lo..hi` (00_scope.md 5.3). -/
def clampNat (lo hi v : Nat) : Nat := if v < lo then lo else if hi < v then hi else v

/-- A count increased by one, saturating at `top`. -/
def satInc (top v : Nat) : Nat := min top (v + 1)

/-- The magnitude of a difference of two unsigned values (R7). -/
def absDiff (a b : Nat) : Nat := if a ≤ b then b - a else a - b

/-- 1 for true, 0 for false: a condition as a field of a record. -/
def bitOf (b : Bool) : Nat := if b then 1 else 0

/-- One when a clamp changed a field, for the clamped-field counts (R69, R167). -/
def changed (before after : Nat) : Nat := if before = after then 0 else 1

/-- The signed value of a 16-bit field (s16, 11_record_formats_and_electrical_summary.md). -/
def signed16 (h : Half) : Int := h.toInt

/-- A signed value as a 16-bit field. -/
def toS16 (v : Int) : Half := BitVec.ofInt 16 v

/-- A signed value sign-extended to a word (R188). -/
def toS32 (v : Int) : Word := BitVec.ofInt 32 v

/-- A word from its two 16-bit halves, the low half at the lower address (00_scope.md 5.4). -/
def pack16 (lo hi : Half) : Word := hi ++ lo

/-- A word from its four bytes, the first at the lowest address (00_scope.md 5.4). -/
def pack8 (b0 b1 b2 b3 : Byte) : Word := b3 ++ b2 ++ b1 ++ b0

/-- The byte `k` (0 the lowest-addressed) of a word. -/
def byteOf (w : Word) (k : Nat) : Byte := w.extractLsb' (8 * k) 8

/-- The low half of a word. -/
def lowHalf (w : Word) : Half := w.extractLsb' 0 16

/-- The high half of a word. -/
def highHalf (w : Word) : Half := w.extractLsb' 16 16

/-- An unsigned quantity as a byte field. -/
def u8 (n : Nat) : Byte := BitVec.ofNat 8 n

/-- An unsigned quantity as a 16-bit field. -/
def u16 (n : Nat) : Half := BitVec.ofNat 16 n

/-- An unsigned quantity as a word. -/
def u32 (n : Nat) : Word := BitVec.ofNat 32 n

/-- An unsigned field of a word: `v` truncated to `width` bits, placed at bit `low` (R189). -/
def field (width low v : Nat) : Word := BitVec.ofNat 32 ((v % 2 ^ width) * 2 ^ low)

/-- A signed field of a word, two's complement of `width` bits, placed at bit `low` (R189). -/
def fieldSigned (width low : Nat) (v : Int) : Word := field width low (BitVec.ofInt width v).toNat

/-- A word made of fields that do not overlap (R189). -/
def joinFields (fs : List Word) : Word := fs.foldl (· ||| ·) 0

/-- The decision of a bit vector of bits by the majority of their three centre samples (R2). -/
def majority {w : Nat} (s7 s8 s9 : BitVec w) : BitVec w := (s7 &&& s8) ||| (s7 &&& s9) ||| (s8 &&& s9)

/-- The decision of one bit by the majority of its three centre samples (R2). -/
def majorityBit (s7 s8 s9 : Bool) : Bool := (s7 && s8) || (s7 && s9) || (s8 && s9)

/-- How many bits of a vector are one, bits `low` to `low + n - 1` (the parity check of R3). -/
def onesIn {w : Nat} (v : BitVec w) (low n : Nat) : Nat :=
  ((List.range n).map fun k => bitOf (v.getLsbD (low + k))).sum

end Sys2Proof.Machine
end

