-- ==== Sys2Proof/Machine/Memory.lean ====
section
/-! DEFINITION. The Exchange RAM: 8 KiB, little-endian, accessed in indivisible 32-bit words (R155, 00_scope.md 5.4). Held as
the list of its bytes that are not zero, addresses strictly rising, which is the form power-on reset leaves (R171: zero into
every word). -/

namespace Sys2Proof.Machine

/-- The Exchange RAM in its one canonical form: addresses strictly rising and below 8 KiB, no listed byte zero. An address
that is not listed reads as zero, which power-on reset writes everywhere (R171). -/
abbrev Memory := List Host.Cell

/-- Addresses strictly rising from `low` on, none beyond 8 KiB, no byte zero. -/
def Memory.wfFrom : Nat → Memory → Bool
  | _, [] => true
  | low, (a, v) :: rest => decide (low ≤ a) && decide (a < 4 * Config.ramWords) && decide (v ≠ 0) && Memory.wfFrom (a + 1) rest

/-- The canonical form holds. -/
def Memory.wf (m : Memory) : Bool := Memory.wfFrom 0 m

/-- The byte at address `a`; an unlisted address reads as zero (R171). -/
def Memory.readByte : Memory → Nat → Byte
  | [], _ => 0
  | (b, w) :: rest, a => if a = b then w else Memory.readByte rest a

/-- The byte `v` stored at address `a`, keeping the canonical form. -/
def Memory.writeByte : Memory → Nat → Byte → Memory
  | [], a, v => if v = 0 then [] else [(a, v)]
  | (b, w) :: rest, a, v =>
    if a < b then (if v = 0 then (b, w) :: rest else (a, v) :: (b, w) :: rest)
    else if a = b then (if v = 0 then rest else (a, v) :: rest)
    else (b, w) :: Memory.writeByte rest a v

/-- The word at word address `i`, little-endian (00_scope.md 5.4). An address beyond 8 KiB reads as 0 (R155). -/
def Memory.readWord (m : Memory) (i : Nat) : Word :=
  if i < Config.ramWords then
    pack8 (m.readByte (4 * i)) (m.readByte (4 * i + 1)) (m.readByte (4 * i + 2)) (m.readByte (4 * i + 3))
  else 0

/-- The word `v` stored at word address `i`. A write beyond 8 KiB is ignored (R155). -/
def Memory.writeWord (m : Memory) (i : Nat) (v : Word) : Memory :=
  if i < Config.ramWords then
    (((m.writeByte (4 * i) (byteOf v 0)).writeByte (4 * i + 1) (byteOf v 1)).writeByte (4 * i + 2) (byteOf v 2)).writeByte
      (4 * i + 3) (byteOf v 3)
  else m

/-- Words stored one after another in ascending order from word address `i` on. -/
def Memory.writeWords : Memory → Nat → List Word → Memory
  | m, _, [] => m
  | m, i, v :: rest => Memory.writeWords (m.writeWord i v) (i + 1) rest

/-- A u8 field at byte address `a` (R182: a field is read at its stated width). -/
def Memory.u8At (m : Memory) (a : Nat) : Nat := (m.readByte a).toNat

/-- A u16 field at byte address `a`, little-endian. -/
def Memory.u16At (m : Memory) (a : Nat) : Nat := (m.readByte a).toNat + 256 * (m.readByte (a + 1)).toNat

end Sys2Proof.Machine
end

