-- ==== Sys2Proof/Syntax.lean ====
section
/-! DEFINITION. The commands of the LT620: one constructor for each row of spec/opcode_table.json. The part takes them from
outside (a host access, an edge or a character on a line, the expiry of a timer) or from a block of its own reaching the next
of its indivisible steps. -/

namespace Sys2Proof

/-- The five sensor lanes L0 to L4 (R1). -/
inductive LaneId where
  | imu | front | rear | engine | trailer
  deriving DecidableEq, Repr

/-- The commands. A row that stands for a host access carries the word written. A row that stands for something a line
receiver decides carries the samples the decision is made from: `s7 s8 s9` are the three centre samples (7, 8 and 9 of 16) of
each bit, bit `t` of the vector being bit time `t` (R2, R136, R190). A row that stands for the execution of a
taken request carries nothing: the request is in `State`, where the Request Engine's take put it (R162). -/
inductive Instr where
  /-- POWER_ON_RESET (R171). -/
  | powerOnReset
  /-- SOFT_RESET (R172): a host write of `value` to CONTROL, its reset bit set. -/
  | softReset (value : Word)
  /-- ATTENTION_ARRIVAL (R161): a host write of any value to ATTENTION. -/
  | attentionArrival (value : Word)
  /-- SUMMARY_WRITE (R157). -/
  | summaryWrite (value : Word)
  /-- SUMMARY_ENABLE_WRITE (R158). -/
  | summaryEnableWrite (value : Word)
  /-- REGISTER_WRITE_IGNORED (R156): a write to register word address `addr` that the part ignores. -/
  | registerWriteIgnored (addr : BitVec 12) (value : Word)
  /-- HOST_RAM_WRITE (R155): one word at Exchange RAM word address `addr`. -/
  | hostRamWrite (addr : BitVec 12) (value : Word)
  /-- LANE_IDLE_DETECTED (R2): `run` consecutive high samples have been counted. -/
  | laneIdleDetected (lane : LaneId) (run : Nat)
  /-- LANE_WORD_ARRIVAL (R3): the stop bit of a 23-bit lane word has been decided. -/
  | laneWordArrival (lane : LaneId) (s7 s8 s9 : BitVec 23)
  /-- FRAME_START (R21). -/
  | frameStart
  /-- COMPUTATION_COMPLETE (R34). -/
  | computationComplete
  /-- REFUSED_KIND (R163). -/
  | refusedKind
  /-- ADOPT_MODE (R37). -/
  | adoptMode
  /-- ADOPT_LOAD (R105). -/
  | adoptLoad
  /-- ADOPT_LANE (R15). -/
  | adoptLane
  /-- ADOPT_LINK (R151). -/
  | adoptLink
  /-- GAP_REQUEST_APPLY (R25). -/
  | gapRequestApply
  /-- TABLE_LOAD (R67). -/
  | tableLoad
  /-- TABLE_DUMP (R75). -/
  | tableDump
  /-- TABLE_DUMP_DONE (R75). -/
  | tableDumpDone
  /-- MODE_GO_DORMANT (R118). -/
  | modeGoDormant
  /-- MODE_GO_STANDBY (R120). -/
  | modeGoStandby
  /-- MODE_GO_ACTIVE (R121). -/
  | modeGoActive
  /-- MODE_GO_CALIBRATE (R123). -/
  | modeGoCalibrate
  /-- ABANDON_TRANSITION (R127). -/
  | abandonTransition
  /-- ABANDON_CAPTURE (R170). -/
  | abandonCapture
  /-- CLEAR_STICKY (R29). -/
  | clearSticky
  /-- CLEAR_LANE (R17). -/
  | clearLane
  /-- CLEAR_CHANNEL_COUNTS (R152). -/
  | clearChannelCounts
  /-- CLEAR_NOTICE_HEADER (R177). -/
  | clearNoticeHeader
  /-- CHANNEL_STOP (R148). -/
  | channelStop
  /-- CHANNEL_RESUME (R149). -/
  | channelResume
  /-- CHANNEL_RESTART (R150). -/
  | channelRestart
  /-- CAPTURE (R169). -/
  | capture
  /-- LINK_GRANT (R142). -/
  | linkGrant
  /-- MESSAGE_SENT (R143). -/
  | messageSent
  /-- LINK_IDLE_DETECTED (R136): `run` consecutive high samples have been counted. -/
  | linkIdleDetected (run : Nat)
  /-- ACK_ADDRESS_DISCARD (R144): `idleBits` bit times of idle line with no start edge have passed. -/
  | ackAddressDiscard (idleBits : Nat)
  /-- ACK_ARRIVAL (R144): the stop bit of an acknowledgement's check character has been decided. -/
  | ackArrival (s7 s8 s9 : BitVec 10)
  /-- REPLY_TIMEOUT (R146). -/
  | replyTimeout
  /-- LANE_START_EDGE (R2): the sample before and the present sample. -/
  | laneStartEdge (lane : LaneId) (before now : Bool)
  /-- LANE_FALSE_START (R2): the three centre samples of the start bit. -/
  | laneFalseStart (lane : LaneId) (s7 s8 s9 : Bool)
  /-- LINK_START_EDGE (R136). -/
  | linkStartEdge (before now : Bool)
  /-- LINK_FALSE_START (R136). -/
  | linkFalseStart (s7 s8 s9 : Bool)
  /-- LINK_CHARACTER_ARRIVAL (R144): the stop bit of a character that is no check byte has been decided. -/
  | linkCharacterArrival (s7 s8 s9 : BitVec 10)
  /-- REFUSED_RANGE (R167). -/
  | refusedRange
  deriving DecidableEq, Repr

end Sys2Proof
end

