-- ==== Sys2Proof/Machine/Types.lean ====
section
/-! DEFINITION. The state of the LT620's nine blocks, one structure for each block of 00_scope.md 2.1, as plain data. -/

namespace Sys2Proof.Machine

/-- A line receiver's state (R2, R136). `off` is the stopped receiver of a disabled lane (R16) and the link
receiver while the ALC drives the line (R136). -/
inductive RxState where
  | off | idleWait | hunt | receive
  deriving DecidableEq, Repr

/-- Lane states (R11), in code order (R182). -/
inductive LaneState where
  | silent | live | held | lost
  deriving DecidableEq, Repr

/-- The six lane error conditions (R9). -/
inductive LaneError where
  | parity | frame | short | tag | stray | implausible
  deriving DecidableEq, Repr

/-- The six sticky error flags of a lane (R9). -/
structure LaneFlags where
  parity : Bool
  frame : Bool
  short : Bool
  tag : Bool
  stray : Bool
  implausible : Bool
  deriving DecidableEq, Repr

/-- A lane's adopted settings (R14). `maxStep` is held for FRONT and REAR alone. -/
structure LaneSettings where
  enable : Bool
  rate : Nat
  expected : Nat
  hold : Nat
  maxStep : Option Nat
  deriving DecidableEq, Repr

/-- One lane context of the Sensor Lane Receiver. `burst` is the open burst in tag order: `none` is NO_BURST, and
`some vs` is OPEN with expected tag `vs.length` (R4, R5). -/
structure Lane where
  rx : RxState
  burst : Option (List Half)
  slot : List Half
  age : Nat
  state : LaneState
  flags : LaneFlags
  errorCount : Nat
  settings : LaneSettings
  deriving DecidableEq, Repr

/-- The five lane contexts of the SLR. -/
structure Lanes where
  imu : Lane
  front : Lane
  rear : Lane
  engine : Lane
  trailer : Lane
  deriving DecidableEq, Repr

/-- The Frame Timer: the adopted period, the length of the interval being timed (R22), both in ms, and the frame number (R21). -/
structure FrameTimer where
  period : Nat
  interval : Nat
  frame : Word
  deriving DecidableEq, Repr

/-- The adopted mode record (R37, R53, R93, R104, R132, R175) but for frame_period, which the Frame Timer holds. -/
structure ModeRecord where
  escalationMask : Byte
  latchCount : Nat
  leanWarn : Nat
  alpha : Nat
  vKinMin : Nat
  vAccMax : Nat
  slipVMin : Nat
  ki : Nat
  rel : Nat
  modeGrade : Nat
  episodeWeight : Nat
  restoreFrames : Nat
  recoveryFrames : Nat
  fallbackTorque : Nat
  fallbackBrake : Nat
  fallbackFrontShare : Nat
  noticeMask : Byte
  deriving DecidableEq, Repr

/-- Load classes (R105), in code order. -/
inductive LoadClass where
  | solo | pillion | pillionLuggage | trailer
  deriving DecidableEq, Repr

/-- The torque factor and the brake factor of one load class, in 1/256 (R105). -/
structure ClassFactors where
  tf : Nat
  bf : Nat
  deriving DecidableEq, Repr

/-- The adopted load record (R105). -/
structure LoadRecord where
  cls : LoadClass
  solo : ClassFactors
  pillion : ClassFactors
  pillionLuggage : ClassFactors
  trailer : ClassFactors
  deriving DecidableEq, Repr

/-- The operating states (R115), in code order (R116). -/
inductive OpState where
  | dormant | calibrating | standby | active | limp
  deriving DecidableEq, Repr

/-- What a snapshot holds of one lane (R10, R23). -/
structure LaneView where
  slot : List Half
  age : Nat
  state : LaneState
  enable : Bool
  deriving DecidableEq, Repr

/-- The snapshot of all five lanes (R10). -/
structure Snapshot where
  imu : LaneView
  front : LaneView
  rear : LaneView
  engine : LaneView
  trailer : LaneView
  deriving DecidableEq, Repr

/-- The grip observer's values (R99). -/
structure Observer where
  bucket : Nat
  quiet : Nat
  observed : Nat
  deriving DecidableEq, Repr

/-- The computation in flight: what the FCU takes at the frame start and holds (R23), its cause bits (R28), and whether its frame
start came after the running calibration began (R124). -/
structure Computation where
  frame : Word
  dtMs : Nat
  stateAtStart : OpState
  snapshot : Snapshot
  mode : ModeRecord
  load : LoadRecord
  leanPrev : Int
  biasRoll : Int
  biasYaw : Int
  rPrev : Nat
  observer : Observer
  causes : Byte
  calFrame : Bool
  deriving DecidableEq, Repr

/-- The running capture (R179). `skipCurrent` says that it was accepted during the computation now in flight, which
it does not record (R169). -/
structure Capture where
  slot : Nat
  count : Nat
  next : Nat
  first : Option Word
  skipCurrent : Bool
  deriving DecidableEq, Repr

/-- The Frame Computation Unit. -/
structure FrameUnit where
  leanFine : Int
  biasRoll : Int
  biasYaw : Int
  calValid : Bool
  reduction : Nat
  observer : Observer
  prevActiveGrade : Nat
  prevVerdicts : Byte
  sticky : Byte
  escCount : Nat
  escLatch : Bool
  mode : ModeRecord
  load : LoadRecord
  publications : Word
  capture : Option Capture
  inFlight : Option Computation
  deriving DecidableEq, Repr

/-- One envelope point P(b, g) (R60). -/
structure EnvelopePoint where
  slipTarget : Nat
  torqueCeiling : Nat
  brakeCeiling : Nat
  frontShare : Nat
  trailerShare : Nat
  deriving DecidableEq, Repr

/-- One radius row Q(b) (R61). -/
structure RadiusRow where
  front : Nat
  rear : Nat
  deriving DecidableEq, Repr

/-- The envelope table: the points in the order of R59 (P(b, g) is number 4b + g) and the radius rows. -/
structure Table where
  points : Vector EnvelopePoint 56
  rows : Vector RadiusRow 14
  deriving DecidableEq, Repr

/-- The four facts of a LIMP report (R36). -/
structure LimpReport where
  imuUnavailable : Bool
  referenceUnavailable : Bool
  maskedCause : Bool
  escalation : Bool
  deriving DecidableEq, Repr

/-- The motion data handed with a LIMP report (R36, R120). -/
structure MotionData where
  vRef : Nat
  front : LaneState
  rear : LaneState
  deriving DecidableEq, Repr

/-- The four calibration sums (R124). -/
structure CalSums where
  roll : Int
  yaw : Int
  ay : Int
  az : Int
  deriving DecidableEq, Repr

/-- The State Controller. `activeEntered` is the model's own field: ACTIVE was entered since the last frame start, so that the next
computation that begins in ACTIVE is the first of its stay (R88, R99, R126; notes/assumptions/22.md). -/
structure StateController where
  op : OpState
  prior : Option OpState
  thenTarget : Option OpState
  calCount : Nat
  sums : CalSums
  recovery : Nat
  lastReport : Option LimpReport
  lastMotion : Option MotionData
  activeEntered : Bool
  deriving DecidableEq, Repr

/-- The three channels of the actuator link (R136). -/
inductive ChannelId where
  | engine | brake | trailer
  deriving DecidableEq, Repr

/-- Channel states (R139), in code order (R182). -/
inductive ChannelState where
  | idle | pending | outstanding | stopping | stopped
  deriving DecidableEq, Repr

/-- Channel health (R146), in code order (R182). -/
inductive Health where
  | ok | missing | lost
  deriving DecidableEq, Repr

/-- Transaction conditions (R145, R146), in code order. -/
inductive Condition where
  | none | good | goodClamped | stationFault | badCheck | sequence | timeout
  deriving DecidableEq, Repr

/-- Message sources (R137), in code order. -/
inductive Source where
  | none | computed | fallback
  deriving DecidableEq, Repr

/-- A message's payload by station (R137, R191). -/
inductive Payload where
  | torque (ceiling : Nat)
  | brake (ceiling share : Nat)
  | trailer (level : Nat)
  deriving DecidableEq, Repr

/-- A deposited message, with the full frame number of its computation (R140). -/
structure Message where
  source : Source
  frame : Word
  payload : Payload
  deriving DecidableEq, Repr

/-- One channel of the Actuator Link Controller (R139). `slot` is the pending slot. -/
structure Channel where
  state : ChannelState
  slot : Option Message
  toggle : Bool
  health : Health
  misses : Nat
  last : Condition
  missed : Nat
  served : Bool
  deriving DecidableEq, Repr

/-- Link states (R143). -/
inductive LinkState where
  | free | sending | awaiting | reserved
  deriving DecidableEq, Repr

/-- The outstanding transaction (R142): the channel, the message, the toggle and the eight bytes sent, the rate code
and multiplier recorded at the grant, the reply window in µs once it runs (R143), and whether it has been abandoned (R150). -/
structure Transaction where
  channel : ChannelId
  message : Message
  toggle : Bool
  bytes : List Byte
  rate : Nat
  multiplier : Nat
  window : Option Nat
  abandoned : Bool
  deriving DecidableEq, Repr

/-- The adopted link record (R151). -/
structure LinkRecord where
  rate : Nat
  multiplier : Nat
  missLimit : Nat
  engineInterval : Nat
  brakeInterval : Nat
  trailerInterval : Nat
  deriving DecidableEq, Repr

/-- The Actuator Link Controller. `address` is an address byte held while its check byte is awaited (R144). `driven` is what the ALC
drives onto the line, character by character and back to back, bit k of a character in its bit time k; empty while it does not drive
the line, which is then released and idles high (R136). -/
structure LinkController where
  engine : Channel
  brake : Channel
  trailer : Channel
  link : LinkState
  outstanding : Option Transaction
  stray : Nat
  record : LinkRecord
  rx : RxState
  address : Option Byte
  driven : List (BitVec 10)
  deriving DecidableEq, Repr

/-- A taken request: the Request Engine's copy (R162). `slot` is the board slot, 0 to 15. -/
structure Request where
  slot : Nat
  kind : Byte
  tag : Half
  param1 : Word
  param2 : Word
  payload : List Word
  deriving DecidableEq, Repr

/-- How far the request in execution has come: taken; held as gap-request waiting (R25); a TABLE_DUMP that has
written the first `written` words of the image (R75). -/
inductive Phase where
  | taken
  | waitingGap
  | dumping (written : Nat)
  deriving DecidableEq, Repr

/-- The request in execution (R163). -/
structure Execution where
  request : Request
  phase : Phase
  deriving DecidableEq, Repr

/-- A scan in progress: its start slot and how many of its 16 positions have been passed (R161). -/
structure Scan where
  start : Nat
  next : Nat
  deriving DecidableEq, Repr

/-- What a long-running request waits on (R164). -/
inductive LongOwner where
  | calibration
  | capture
  | stop (channel : ChannelId)
  deriving DecidableEq, Repr

/-- An entry of the long-running list (R164). -/
structure LongEntry where
  slot : Nat
  kind : Byte
  tag : Half
  owner : LongOwner
  deriving DecidableEq, Repr

/-- The Request Engine. -/
structure RequestEngine where
  cursor : Nat
  scan : Option Scan
  rescan : Bool
  execution : Option Execution
  long : List LongEntry
  deriving DecidableEq, Repr

/-- The Notice Writer (R176, R177). -/
structure NoticeWriter where
  writeCount : Half
  dropped : Nat
  readCountBad : Bool
  deriving DecidableEq, Repr

/-- The Exchange Port's registers and its ALERT output (R156 to R158). Bits of SUMMARY and SUMMARY_ENABLE as R181 numbers them. -/
structure ExchangePort where
  summary : BitVec 7
  enable : BitVec 7
  alert : Bool
  deriving DecidableEq, Repr

end Sys2Proof.Machine
end

