-- ==== Sys2Proof/Machine/Defaults.lean ====
section
/-! DEFINITION. The value every block takes at power-on reset (R18, R27, R57, R77, R96, R113, R134, R153, R171, R178). -/

namespace Sys2Proof.Machine

/-- The channel count n of a lane (R1). -/
def channelCount : LaneId → Nat
  | .imu => 5
  | .front => 1
  | .rear => 1
  | .engine => 1
  | .trailer => 1

/-- No error flag set (R18). -/
def noFlags : LaneFlags := ⟨false, false, false, false, false, false⟩

/-- The default settings of a lane (R14). -/
def defaultSettings : LaneId → LaneSettings
  | .imu => ⟨true, 2, 1, 5, none⟩
  | .front => ⟨true, 2, 1, 5, some 300⟩
  | .rear => ⟨true, 2, 1, 5, some 300⟩
  | .engine => ⟨true, 2, 5, 25, none⟩
  | .trailer => ⟨true, 2, 50, 250, none⟩

/-- A lane context at power-on reset (R18). -/
def resetLane (l : LaneId) : Lane where
  rx := .idleWait
  burst := none
  slot := List.replicate (channelCount l) 0
  age := 255
  state := .silent
  flags := noFlags
  errorCount := 0
  settings := defaultSettings l

/-- The SLR at power-on reset (R18). -/
def resetLanes : Lanes where
  imu := resetLane .imu
  front := resetLane .front
  rear := resetLane .rear
  engine := resetLane .engine
  trailer := resetLane .trailer

/-- The Frame Timer at reset: frame number 0, period 2 ms, the first interval 2 ms (R21, R22, R27). -/
def resetTimer : FrameTimer := ⟨2, 2, 0⟩

/-- The mode record's defaults (R37, R53, R93, R104, R132, R175). -/
def defaultMode : ModeRecord where
  escalationMask := 0x81
  latchCount := 3
  leanWarn := 4500
  alpha := 131
  vKinMin := 500
  vAccMax := 300
  slipVMin := 300
  ki := 512
  rel := 8
  modeGrade := 0
  episodeWeight := 96
  restoreFrames := 5000
  recoveryFrames := 500
  fallbackTorque := 384
  fallbackBrake := 3000
  fallbackFrontShare := 166
  noticeMask := 0xFF

/-- The load record's defaults (R105). -/
def defaultLoad : LoadRecord where
  cls := .solo
  solo := ⟨256, 256⟩
  pillion := ⟨240, 248⟩
  pillionLuggage := ⟨230, 240⟩
  trailer := ⟨200, 220⟩

/-- The FCU at reset (R27, R57, R96, R113, R173, R179). -/
def resetUnit : FrameUnit where
  leanFine := 0
  biasRoll := 0
  biasYaw := 0
  calValid := false
  reduction := 0
  observer := ⟨0, 0, 0⟩
  prevActiveGrade := 0
  prevVerdicts := 0
  sticky := 0
  escCount := 0
  escLatch := false
  mode := defaultMode
  load := defaultLoad
  publications := 0
  capture := none
  inFlight := none

/-- The default envelope point P(b, g) (R62). -/
def defaultPoint (b g : Nat) : EnvelopePoint where
  slipTarget := max 20 (120 - (5 * b + 20 * g))
  torqueCeiling := max 64 (1024 - (48 * b + 128 * g))
  brakeCeiling := max 1000 (9000 - (400 * b + 1500 * g))
  frontShare := 180 - 3 * b
  trailerShare := 64 - 4 * b

/-- The default radius row Q(b) (R63). -/
def defaultRow (b : Nat) : RadiusRow := ⟨32768 - 10 * b * b, 32768 - 15 * b * b⟩

/-- The default table (R62, R63). -/
def defaultTable : Table where
  points := Vector.ofFn fun i => defaultPoint (i.val / 4) (i.val % 4)
  rows := Vector.ofFn fun i => defaultRow i.val

/-- No calibration sums gathered (R134). -/
def zeroSums : CalSums := ⟨0, 0, 0, 0⟩

/-- The State Controller at reset (R134); the model's own mark of an entry to ACTIVE is clear (notes/assumptions/22.md). -/
def resetController : StateController where
  op := .dormant
  prior := none
  thenTarget := none
  calCount := 0
  sums := zeroSums
  recovery := 0
  lastReport := none
  lastMotion := none
  activeEntered := false

/-- A channel at reset (R153). -/
def resetChannel : Channel where
  state := .idle
  slot := none
  toggle := false
  health := .ok
  misses := 0
  last := .none
  missed := 0
  served := true

/-- The link record's defaults (R151). -/
def defaultLink : LinkRecord := ⟨2, 6, 3, 1, 1, 4⟩

/-- The ALC at reset (R153); its receiver enters HUNT at either reset (R136). -/
def resetLink : LinkController where
  engine := resetChannel
  brake := resetChannel
  trailer := resetChannel
  link := .free
  outstanding := none
  stray := 0
  record := defaultLink
  rx := .hunt
  address := none
  driven := []

/-- The Request Engine at reset (R171 step 3). -/
def resetEngine : RequestEngine := ⟨0, none, false, none, []⟩

/-- The Notice Writer at reset (R178). -/
def resetWriter : NoticeWriter := ⟨0, 0, false⟩

/-- The bit of SUMMARY that RESET_DONE is (R181). -/
def resetDoneBit : BitVec 7 := 0x40

/-- The Exchange Port at the end of either reset: RESET_DONE alone, no enable, ALERT released (R171 step 4). -/
def resetPort : ExchangePort := ⟨resetDoneBit, 0, false⟩

/-- What IDENT returns: part code 0x0620, revision 0x0001 (R181). -/
def identWord : Word := pack16 0x0620 0x0001

/-- The 16 words of the identity block with a reset cause, 1 POWER_ON or 2 SOFT (R183; words without a field are 0, R182). -/
def identityBlock (cause : Byte) : List Word :=
  [identWord, pack8 1 0 16 64, pack8 32 cause 0 0] ++ List.replicate 13 0

/-- The Exchange RAM at the end of power-on reset: zero but for the identity block with cause POWER_ON (R171 steps 1 and 2). -/
def resetMemory : Memory := Memory.writeWords [] 0 (identityBlock 1)

end Sys2Proof.Machine
end

