-- ==== Sys2Proof/Machine/State.lean ====
section
/-! DEFINITION. The state of the LT620: its nine blocks (00_scope.md 2.1), the Exchange RAM, and the queue of commands. -/

namespace Sys2Proof.Machine

/-- The whole machine. `lanes` is the SLR, `ft` the Frame Timer, `fcu` the Frame Computation Unit, `table` the Table Store, `sc` the
State Controller, `alc` the Actuator Link Controller, `rqe` the Request Engine, `nw` the Notice Writer, `xp` the Exchange
Port, `ram` the Exchange RAM. `freeIndex` is the model's own: the number of free values used so far
(notes/assumptions/17.md). `pending` is the queue of commands that wait, first in, first out. -/
structure State where
  ram : Memory
  lanes : Lanes
  ft : FrameTimer
  fcu : FrameUnit
  table : Table
  sc : StateController
  alc : LinkController
  rqe : RequestEngine
  nw : NoticeWriter
  xp : ExchangePort
  freeIndex : Nat
  pending : List Instr
  deriving DecidableEq, Repr

/-- Why the machine stops with a fault: never. The spec gives every command an effect and names no condition that stops the
part, so no constructor stands here and no step faults (safe: nothing is cut off). -/
inductive Fault where
  deriving DecidableEq, Repr

/-- Why a command has no meaning. -/
inductive Refusal where
  /-- Raised by `exec` for a command that has no meaning yet, by its mnemonic; no arm raises it now. Safe: the machine stops. -/
  | notModelled (mnemonic : String)
  deriving DecidableEq, Repr

/-- The machine right after power-on reset (R171 and the reset rule of each chapter), with no command waiting. -/
def State.reset : State where
  ram := resetMemory
  lanes := resetLanes
  ft := resetTimer
  fcu := resetUnit
  table := defaultTable
  sc := resetController
  alc := resetLink
  rqe := resetEngine
  nw := resetWriter
  xp := resetPort
  freeIndex := 0
  pending := []

end Sys2Proof.Machine
end

