-- ==== Sys2Proof/Machine/Flags.lean ====
section
/-! DEFINITION. The codes of the layouts (R182) and every set of bits the part keeps or forms: lane error flags (R9), cause bits
(R28), verdicts (R31), SUMMARY bits (R157), notice kinds (R175), result codes (R166). -/

namespace Sys2Proof.Machine

/-- Lane state codes (R182). -/
def LaneState.code : LaneState → Nat
  | .silent => 0 | .live => 1 | .held => 2 | .lost => 3

/-- Operating state codes (R116, R182). -/
def OpState.code : OpState → Nat
  | .dormant => 0 | .calibrating => 1 | .standby => 2 | .active => 3 | .limp => 4

/-- Channel state codes (R182). -/
def ChannelState.code : ChannelState → Nat
  | .idle => 0 | .pending => 1 | .outstanding => 2 | .stopping => 3 | .stopped => 4

/-- Health codes (R182). -/
def Health.code : Health → Nat
  | .ok => 0 | .missing => 1 | .lost => 2

/-- Condition codes (R146). -/
def Condition.code : Condition → Nat
  | .none => 0 | .good => 1 | .goodClamped => 2 | .stationFault => 3 | .badCheck => 4 | .sequence => 5 | .timeout => 6

/-- Message source codes (R137). -/
def Source.code : Source → Nat
  | .none => 0 | .computed => 1 | .fallback => 2

/-- Station numbers, which are also the channel codes of requests and notices (R136). -/
def ChannelId.station : ChannelId → Nat
  | .engine => 1 | .brake => 2 | .trailer => 3

/-- The channel of a CHANNEL request's channel code (R148). -/
def channelOfCode : Nat → Option ChannelId
  | 1 => some .engine
  | 2 => some .brake
  | 3 => some .trailer
  | _ => none

/-- Lane indices (R1). -/
def laneIndex : LaneId → Nat
  | .imu => 0 | .front => 1 | .rear => 2 | .engine => 3 | .trailer => 4

/-- The lanes in index order L0 to L4 (R12). -/
def allLanes : List LaneId := [.imu, .front, .rear, .engine, .trailer]

/-- Load class codes (R105). -/
def LoadClass.code : LoadClass → Nat
  | .solo => 0 | .pillion => 1 | .pillionLuggage => 2 | .trailer => 3

/-- The load class of an adopted class code; codes above 3 become 3 (R105). -/
def loadClassOfCode : Nat → LoadClass
  | 0 => .solo
  | 1 => .pillion
  | 2 => .pillionLuggage
  | _ => .trailer

/-- A byte of eight conditions, the first in bit 0. -/
def byteOfBits (b0 b1 b2 b3 b4 b5 b6 b7 : Bool) : Byte :=
  u8 (bitOf b0 + 2 * bitOf b1 + 4 * bitOf b2 + 8 * bitOf b3 + 16 * bitOf b4 + 32 * bitOf b5 + 64 * bitOf b6 + 128 * bitOf b7)

/-- Lane error flags as the live page carries them (R182); bits 7:6, to which the spec gives no flag, are written 0, the model's choice
(notes/assumptions/25.md). -/
def LaneFlags.toByte (f : LaneFlags) : Byte :=
  byteOfBits f.parity f.frame f.short f.tag f.stray f.implausible false false

/-- The flags with one error's flag set (R9). -/
def LaneFlags.set (f : LaneFlags) : LaneError → LaneFlags
  | .parity => { f with parity := true }
  | .frame => { f with frame := true }
  | .short => { f with short := true }
  | .tag => { f with tag := true }
  | .stray => { f with stray := true }
  | .implausible => { f with implausible := true }

/-! ### Cause bits (R28) -/

/-- C0. -/
def causeLeanClamp : Byte := 0x01
/-- C1. -/
def causeTauClamp : Byte := 0x02
/-- C2. -/
def causeSlipSat : Byte := 0x04
/-- C3. -/
def causeSpeedLow : Byte := 0x08
/-- C4. -/
def causeInputHeld : Byte := 0x10
/-- C5. -/
def causeInputLost : Byte := 0x20
/-- C6. -/
def causeRegSat : Byte := 0x40
/-- C7. -/
def causeRateClamp : Byte := 0x80

/-- A bit that is present when its condition arose. -/
def whenBit (cond : Bool) (bit : Byte) : Byte := if cond then bit else 0

/-! ### SUMMARY bits (R181) -/

/-- SUMMARY.REQ_DONE. -/
def reqDoneBit : BitVec 7 := 0x01
/-- SUMMARY.NOTICE_NEW. -/
def noticeNewBit : BitVec 7 := 0x02
/-- SUMMARY.LIVE_NEW. -/
def liveNewBit : BitVec 7 := 0x04
/-- SUMMARY.LIMP. -/
def limpBit : BitVec 7 := 0x08
/-- SUMMARY.CHANNEL_LOST. -/
def channelLostBit : BitVec 7 := 0x10
/-- SUMMARY.LANE_LOST. -/
def laneLostBit : BitVec 7 := 0x20

/-! ### Notices (R175, R116, R146) -/

/-- The eight notice kinds (R175). -/
inductive NoticeKind where
  | state | verdict | lane | channel | missedService | escalation | grade | cal
  deriving DecidableEq, Repr

/-- Notice kind codes (R175). -/
def NoticeKind.code : NoticeKind → Nat
  | .state => 1 | .verdict => 2 | .lane => 3 | .channel => 4 | .missedService => 5 | .escalation => 6 | .grade => 7 | .cal => 8

/-- The reasons a STATE notice carries (R116). -/
inductive StateReason where
  | modeGo | abandon | limpEntry | recovery | calSuccess | calFailed
  deriving DecidableEq, Repr

/-- STATE reason codes (R116). -/
def StateReason.code : StateReason → Nat
  | .modeGo => 1 | .abandon => 2 | .limpEntry => 3 | .recovery => 4 | .calSuccess => 5 | .calFailed => 6

/-- CHANNEL notice reasons (R146). -/
inductive ChannelReason where
  | lost | recovered | stationFault | restart
  deriving DecidableEq, Repr

/-- CHANNEL reason codes (R146). -/
def ChannelReason.code : ChannelReason → Nat
  | .lost => 1 | .recovered => 2 | .stationFault => 3 | .restart => 4

/-- How a calibration can fail (R126, R127). -/
inductive CalFailure where
  | lanes | motion | attitude | dormant | abandoned
  deriving DecidableEq, Repr

/-- Calibration failure details (R126, R127). -/
def CalFailure.code : CalFailure → Nat
  | .lanes => 1 | .motion => 2 | .attitude => 3 | .dormant => 4 | .abandoned => 5

/-! ### Result codes (R166) -/

/-- The result codes of a completed request (R166). -/
inductive ResultCode where
  | ok | clamped | partialCapture
  | refusedKind | refusedRange | refusedOrder | refusedState | refusedBusy | refusedMoving | refusedCondition | refusedUncalibrated
  | calFailed | abandoned | reset
  deriving DecidableEq, Repr

/-- The code of a result (R166). -/
def ResultCode.code : ResultCode → Nat
  | .ok => 0 | .clamped => 1 | .partialCapture => 2
  | .refusedKind => 16 | .refusedRange => 17 | .refusedOrder => 18 | .refusedState => 19 | .refusedBusy => 20
  | .refusedMoving => 21 | .refusedCondition => 22 | .refusedUncalibrated => 23
  | .calFailed => 32 | .abandoned => 33 | .reset => 34

end Sys2Proof.Machine
end

