-- ==== Sys2Proof/Machine/Operands.lean ====
section
/-! DEFINITION. Where the operands of a command lie: the layout of the Exchange RAM (11_record_formats_and_electrical_summary.md 11.2),
the fields of a request slot (R187), and the fields of a lane word and of a link character (R190, R136). -/

namespace Sys2Proof.Machine

/-! ### Word addresses of the areas -/

/-- The notice header's first word, at 0x0040 (R183). -/
def headerWord : Nat := 16
/-- The words of the notice header: 192 bytes. -/
def headerWords : Nat := 48
/-- The live page's first word, at 0x0200. -/
def pageWord : Nat := 128
/-- The words of the live page: 256 bytes. -/
def pageWords : Nat := 64
/-- The envelope table image's first word, at 0x0300. -/
def imageWord : Nat := 192
/-- The words of the envelope table image: 1024 bytes. -/
def imageWords : Nat := 256
/-- The first word of request slot `s`, at 0x0700 + 128 s. -/
def slotWord (s : Nat) : Nat := 448 + 32 * s
/-- The first word of notice list position `p`, at 0x0F00 + 16 p. -/
def noticeWord (p : Nat) : Nat := 960 + 4 * p
/-- The first word of capture entry `k`, at 0x1300 + 64 k. -/
def captureWord (k : Nat) : Nat := 1216 + 16 * k

/-! ### The request slot (R187) -/

/-- Mark codes (R160): FREE 0, POSTED 1, TAKEN 2, DONE 3. -/
def markPosted : Byte := 1
/-- TAKEN. -/
def markTaken : Byte := 2
/-- DONE. -/
def markDone : Byte := 3

/-- A slot's mark (R187). -/
def slotMark (m : Memory) (s : Nat) : Byte := byteOf (m.readWord (slotWord s)) 0

/-- A slot's first word: mark, kind and tag (R187). -/
def firstWord (mark kind : Byte) (tag : Half) : Word := tag ++ kind ++ mark

/-- The Request Engine's copy of a posted slot (R162). -/
def readRequest (m : Memory) (s : Nat) : Request where
  slot := s
  kind := byteOf (m.readWord (slotWord s)) 1
  tag := highHalf (m.readWord (slotWord s))
  param1 := m.readWord (slotWord s + 2)
  param2 := m.readWord (slotWord s + 3)
  payload := (List.range 28).map fun k => m.readWord (slotWord s + 4 + k)

/-- Request kind codes (R163). -/
def kindAdopt : Byte := 1
/-- TABLE_LOAD. -/
def kindTableLoad : Byte := 2
/-- TABLE_DUMP. -/
def kindTableDump : Byte := 3
/-- MODE_GO. -/
def kindModeGo : Byte := 4
/-- ABANDON. -/
def kindAbandon : Byte := 5
/-- CLEAR. -/
def kindClear : Byte := 6
/-- CHANNEL. -/
def kindChannel : Byte := 7
/-- CAPTURE. -/
def kindCapture : Byte := 8

/-- A kind code of 0 or above 8 (R163). -/
def unknownKind (kind : Byte) : Bool := kind == 0 || decide (8 < kind.toNat)

/-- The check of an ADOPT or CLEAR mask: detail 1 for a bit beyond bit 3, detail 2 for no bit (R167, R168). -/
def maskCheck (mask : Word) : Option Nat :=
  if 16 ≤ mask.toNat then some 1 else if mask = 0 then some 2 else none

/-- A mask names bit `k`. -/
def names (mask : Word) (k : Nat) : Bool := mask.getLsbD k

/-- MODE_GO's parameter check (R118). -/
def modeGoCheck (r : Request) : Option Nat :=
  if 3 < r.param1.toNat then some 1
  else if r.param1 = 3 ∧ ¬(r.param2 = 1 ∨ r.param2 = 2) then some 2
  else none

/-- The then-target of a MODE_GO to CALIBRATE (R118). -/
def thenTargetOf (r : Request) : OpState := if r.param2 = 1 then .standby else .active

/-- CHANNEL's parameter check (R148). -/
def channelCheck (r : Request) : Option Nat :=
  if (channelOfCode r.param1.toNat).isNone then some 1
  else if 2 < r.param2.toNat then some 2
  else none

/-- ABANDON's parameter check (R170). -/
def abandonCheck (r : Request) : Option Nat := if 1 < r.param1.toNat then some 1 else none

/-- The detail with which the REFUSED_RANGE row refuses a request: a mask, target, channel or action its checks reject
(R118, R148, R167, R168, R170). -/
def rangeCheck (r : Request) : Option Nat :=
  if r.kind = kindAdopt then maskCheck r.param1
  else if r.kind = kindClear then maskCheck r.param1
  else if r.kind = kindModeGo then modeGoCheck r
  else if r.kind = kindAbandon then abandonCheck r
  else if r.kind = kindChannel then channelCheck r
  else none

/-! ### Lane words and link characters -/

/-- The fields of a decided lane word (R190): bit `t` of the vector is bit time `t`. -/
structure LaneWord where
  start : Bool
  marker : Bool
  tag : Nat
  value : Half
  parityOk : Bool
  stop : Bool
  deriving DecidableEq, Repr

/-- A lane word's fields and its parity check over marker, tag, value and parity bit (R2, R3, R190). -/
def laneWordFields (w : BitVec 23) : LaneWord where
  start := w.getLsbD 0
  marker := w.getLsbD 1
  tag := (w.extractLsb' 2 3).toNat
  value := w.extractLsb' 5 16
  parityOk := onesIn w 1 21 % 2 == 0
  stop := w.getLsbD 22

/-- The character that carries a byte: a start bit, low, in bit time 0, the eight data bits, least significant first, in bit times 1 to
8, and a stop bit, high, in bit time 9 (R136). Bit k of the vector is the level of bit time k. -/
def characterOf (b : Byte) : BitVec 10 := 1#1 ++ b ++ 0#1

/-- A link character's start bit (R136). -/
def charStart (c : BitVec 10) : Bool := c.getLsbD 0
/-- A link character's eight data bits, least significant first (R136). -/
def charData (c : BitVec 10) : Byte := c.extractLsb' 1 8
/-- A link character's stop bit (R136). -/
def charStop (c : BitVec 10) : Bool := c.getLsbD 9

end Sys2Proof.Machine
end

