-- ==== Sys2Proof/Decode.lean ====
section
/-! DEFINITION. Reading commands from bits. No row of spec/opcode_table.json gives bits, so no word spells a command; what the spec
gives bits is the SPI port's framing of host accesses (R181): write transfers are read here, read transfers in PortCommands.lean. -/

namespace Sys2Proof

/-- The command a word spells by the opcode table's bits: none, since no row of the table gives any. -/
def decodeTableWord (_nbits _w : Nat) : Option Instr := none

namespace Machine

/-- A host write of one word to a register, by word address (R156, R181). -/
def registerWrite (addr : BitVec 12) (value : Word) : Instr :=
  match addr.toNat with
  | 1 => .attentionArrival value
  | 2 => .summaryWrite value
  | 3 => .summaryEnableWrite value
  | 4 => if value.getLsbD 0 then .softReset value else .registerWriteIgnored addr value
  | _ => .registerWriteIgnored addr value

/-- One word write access of an SPI transfer: to a register or to the Exchange RAM (R181). -/
def wordWrite (toRegister : Bool) (addr : BitVec 12) (value : Word) : Instr :=
  if toRegister then registerWrite addr value else .hostRamWrite addr value

/-- The word write accesses of a transfer: the word address advances by one after each word and wraps from 4095 to 0 (R181). -/
def wordWrites (toRegister : Bool) : BitVec 12 → List Word → List Instr
  | _, [] => []
  | addr, v :: rest => wordWrite toRegister addr v :: wordWrites toRegister (addr + 1) rest

/-- The words of a transfer's data bytes, lowest-addressed byte first; a word cut short is not written (R181). -/
def transferWords : List Byte → List Word
  | b0 :: b1 :: b2 :: b3 :: rest => pack8 b0 b1 b2 b3 :: transferWords rest
  | _ => []

/-- The commands of an SPI transfer (R181): bit 15 of the header write, bit 14 register space, bits 11:0 the word address, bits
13:12 not examined. A read header gives none: a read is no command (`spiReadTransfer`). -/
def spiTransfer (header : Half) (bytes : List Byte) : List Instr :=
  if header.getLsbD 15 then wordWrites (header.getLsbD 14) (header.extractLsb' 0 12) (transferWords bytes) else []

end Machine

end Sys2Proof
end

