-- ==== Sys2Proof/Machine/Ops.lean ====
section
/-! DEFINITION. The operations every family shares: setting SUMMARY bits with ALERT following (R157, R158), offering a notice (R176),
completing a request (R165), the scan of the request board (R161, R162), and running the request in execution. Each is a
record update of `State`, so that what it leaves alone holds by definition. -/

namespace Sys2Proof.Machine

/-! ### SUMMARY and ALERT -/

/-- The port with its SUMMARY bits and enables as given; ALERT is asserted while a bit is set in both (R158). -/
def portWith (summary enable : BitVec 7) : ExchangePort := ⟨summary, enable, decide (summary &&& enable ≠ 0)⟩

/-- The port with one SUMMARY bit set (R157). -/
def ExchangePort.raise (p : ExchangePort) (bit : BitVec 7) : ExchangePort := portWith (p.summary ||| bit) p.enable

/-- A SUMMARY bit set by the block whose condition arose (R157). -/
def raiseSummary (bit : BitVec 7) (s : State) : State := { s with xp := s.xp.raise bit }

/-! ### Notices -/

/-- Whether the adopted notice mask enables a kind: bit n enables kind n + 1 (R175, R184). -/
def noticeEnabled (mask : Byte) (kind : NoticeKind) : Bool := mask.getLsbD (kind.code - 1)

/-- The notice header's first word: write count, dropped count, flags (R183), of which READ_COUNT_BAD is the one defined (R177); the
other bits of the flags byte are written 0, the model's choice (notes/assumptions/25.md). -/
def NoticeWriter.header (w : NoticeWriter) : Word :=
  pack16 w.writeCount (u8 (bitOf w.readCountBad) ++ u8 w.dropped)

/-- The host's read count, bits 15:0 of the header's second word (R183). -/
def readCountOf (m : Memory) : Half := lowHalf (m.readWord (headerWord + 1))

/-- The occupancy of the notice list: (write count − read count) mod 65536 (R176). -/
def occupancy (m : Memory) (w : NoticeWriter) : Nat := (w.writeCount - readCountOf m).toNat

/-- The four words of a notice record (R188). -/
def noticeRecord (sequence : Half) (kind : NoticeKind) (subject : Nat) (frame first second : Word) : List Word :=
  [pack16 sequence (u8 subject ++ u8 kind.code), frame, first, second]

/-- An enabled notice at the Notice Writer (R176): dropped on a full list or an inconsistent read count, written otherwise.
Answers the RAM, the Notice Writer and the Exchange Port. -/
def writeNotice (kind : NoticeKind) (subject : Nat) (first second frame : Word) (m : Memory) (w : NoticeWriter) (p : ExchangePort) :
    Memory × NoticeWriter × ExchangePort :=
  if 64 ≤ occupancy m w then
    let w' : NoticeWriter :=
      { w with dropped := satInc 255 w.dropped, readCountBad := w.readCountBad || decide (64 < occupancy m w) }
    (m.writeWord headerWord w'.header, w', p)
  else
    let w' : NoticeWriter := { w with writeCount := w.writeCount + 1 }
    let m' := m.writeWords (noticeWord (w.writeCount.toNat % 64)) (noticeRecord w.writeCount kind subject frame first second)
    (m'.writeWord headerWord w'.header, w', p.raise noticeNewBit)

/-- What an offered notice comes to: nothing when its kind is masked out (R175), else R176. -/
def noticeOutcome (kind : NoticeKind) (subject : Nat) (first second : Word) (s : State) : Memory × NoticeWriter × ExchangePort :=
  if noticeEnabled s.fcu.mode.noticeMask kind then writeNotice kind subject first second s.ft.frame s.ram s.nw s.xp
  else (s.ram, s.nw, s.xp)

/-- A block offers a notice (R175); the Notice Writer stamps it with the frame number of the Frame Timer. -/
def offerNotice (kind : NoticeKind) (subject : Nat) (first second : Word) (s : State) : State :=
  { s with
    ram := (noticeOutcome kind subject first second s).1
    nw := (noticeOutcome kind subject first second s).2.1
    xp := (noticeOutcome kind subject first second s).2.2 }

/-! ### Completing a request -/

/-- The RAM after a request's completion is written into its slot, in the order of R165. -/
def completedSlot (m : Memory) (slot : Nat) (kind : Byte) (tag : Half) (code : ResultCode) (detail : Nat) (payload : List Word) :
    Memory :=
  ((m.writeWords (slotWord slot + 4) payload).writeWord (slotWord slot + 1) (pack16 (u16 code.code) (u16 detail))).writeWord
    (slotWord slot) (firstWord markDone kind tag)

/-- A request's completion: its slot written, then SUMMARY.REQ_DONE set (R165). -/
def finishSlot (slot : Nat) (kind : Byte) (tag : Half) (code : ResultCode) (detail : Nat) (payload : List Word) (s : State) : State :=
  { s with
    ram := completedSlot s.ram slot kind tag code detail payload
    xp := s.xp.raise reqDoneBit }

/-- The long-running entry an owner waits with. -/
def longEntryOf (long : List LongEntry) (owner : LongOwner) : Option LongEntry := long.find? fun e => e.owner == owner

/-- A long-running request ends: its entry leaves the list and the request completes (R164). -/
def completeLong (owner : LongOwner) (code : ResultCode) (detail : Nat) (payload : List Word) (s : State) : State :=
  match longEntryOf s.rqe.long owner with
  | none => s
  | some e =>
    finishSlot e.slot e.kind e.tag code detail payload
      { s with rqe := { s.rqe with long := s.rqe.long.filter fun x => x.owner != owner } }

/-! ### The scan of the request board -/

/-- The take of a POSTED slot: the request copied, TAKEN written with kind and tag unchanged, the cursor moved on (R162). -/
def takeSlot (slot : Nat) (m : Memory) (e : RequestEngine) : Memory × RequestEngine :=
  let r := readRequest m slot
  (m.writeWord (slotWord slot) (firstWord markTaken r.kind r.tag),
    { e with cursor := (slot + 1) % 16, execution := some ⟨r, .taken⟩ })

/-- The scan goes on from its next position until it takes a slot or ends; at its end a rescan that is pending begins a new
scan from the cursor (R161). `fuel` bounds the positions: two scans of 16 and their ends. -/
def scanOn : Nat → Memory → RequestEngine → Memory × RequestEngine
  | 0, m, e => (m, e)
  | fuel + 1, m, e =>
    match e.scan with
    | none => (m, e)
    | some sc =>
      if 16 ≤ sc.next then
        if e.rescan then scanOn fuel m { e with rescan := false, scan := some ⟨e.cursor, 0⟩ }
        else (m, { e with scan := none })
      else
        let slot := (sc.start + sc.next) % 16
        let e' : RequestEngine := { e with scan := some ⟨sc.start, sc.next + 1⟩ }
        if slotMark m slot = markPosted then takeSlot slot m e' else scanOn fuel m e'

/-- Enough for the rest of a scan, its end, and one rescan with its end. -/
def scanFuel : Nat := 36

/-- The scan goes on if no request is in execution (R161: it waits at a position while its request is executing). -/
def continueScan (s : State) : State :=
  { s with
    ram := if s.rqe.execution.isNone then (scanOn scanFuel s.ram s.rqe).1 else s.ram
    rqe := if s.rqe.execution.isNone then (scanOn scanFuel s.ram s.rqe).2 else s.rqe }

/-- The Request Engine is released (R163) and its scan goes on. -/
def releaseEngine (s : State) : State := continueScan { s with rqe := { s.rqe with execution := none } }

/-- The request in execution completes and releases the Request Engine (R163, R165). -/
def finish (r : Request) (code : ResultCode) (detail : Nat) (payload : List Word) (s : State) : State :=
  releaseEngine (finishSlot r.slot r.kind r.tag code detail payload s)

/-- The request in execution stays TAKEN: it joins the long-running list and releases the Request Engine (R163, R164). -/
def stayTaken (r : Request) (owner : LongOwner) (s : State) : State :=
  releaseEngine { s with rqe := { s.rqe with long := s.rqe.long ++ [⟨r.slot, r.kind, r.tag, owner⟩] } }

/-! ### Executing the taken request -/

/-- The taken request, if it has not been executed yet. -/
def takenRequest (s : State) : Option Request :=
  match s.rqe.execution with
  | some ⟨r, .taken⟩ => some r
  | _ => none

/-- The execution of the taken request by the row it belongs to. A row whose request is not the one taken cannot arise, and
changes nothing (notes/assumptions/2.md). -/
def withTaken (belongs : Request → Bool) (run : Request → State → State) (s : State) : State :=
  match takenRequest s with
  | some r => if belongs r then run r s else s
  | none => s

/-- The request in execution moves to another phase. -/
def setPhase (r : Request) (p : Phase) (s : State) : State := { s with rqe := { s.rqe with execution := some ⟨r, p⟩ } }

/-- A gap request that passed its checks: applied at once when no computation is in flight, else held as gap-request
waiting (R25). -/
def gapRequest (apply : Request → State → State) (r : Request) (s : State) : State :=
  if s.fcu.inFlight.isNone then apply r s else setPhase r .waitingGap s

end Sys2Proof.Machine
end

