-- ==== Sys2Proof/Machine/Tables.lean ====
section
/-! DEFINITION. The Table Store (04_the_envelope_table.md): interpolation, the order conditions, table loads and table dumps. -/

namespace Sys2Proof.Machine

/-- The point P(b, g); outside the table (never read by the part) a point of zeros. -/
def Table.point (t : Table) (b g : Nat) : EnvelopePoint := t.points[4 * b + g]?.getD ⟨0, 0, 0, 0, 0⟩

/-- The radius row Q(b); outside the table a row of zeros. -/
def Table.row (t : Table) (b : Nat) : RadiusRow := t.rows[b]?.getD ⟨0, 0⟩

/-! ### Interpolation (R65) -/

/-- The field with breakpoint values `p` read at lean magnitude `m`, in 0.01°, by the three steps of R65. -/
def interpolate (p : Nat → Nat) (m : Nat) : Nat :=
  let i := m / 500
  let w := m - 500 * i
  if 13 ≤ i then p 13
  else ((p i : Int) + truncDiv (((p (i + 1) : Int) - (p i : Int)) * (w : Int)) 500).toNat

/-- The five envelope values read at a lean magnitude and a grade (R66). -/
def envelopeAt (t : Table) (m g : Nat) : EnvelopePoint where
  slipTarget := interpolate (fun b => (t.point b g).slipTarget) m
  torqueCeiling := interpolate (fun b => (t.point b g).torqueCeiling) m
  brakeCeiling := interpolate (fun b => (t.point b g).brakeCeiling) m
  frontShare := interpolate (fun b => (t.point b g).frontShare) m
  trailerShare := interpolate (fun b => (t.point b g).trailerShare) m

/-- The two radius factors read at a lean magnitude (R66). -/
def radiusAt (t : Table) (m : Nat) : RadiusRow where
  front := interpolate (fun b => (t.row b).front) m
  rear := interpolate (fun b => (t.row b).rear) m

/-! ### The order conditions (R64, R71) -/

/-- One comparison of the scan of R71: its position, the earlier entry's value and the later entry's. -/
structure Comparison where
  position : Nat
  earlier : Nat
  later : Nat
  deriving DecidableEq, Repr

/-- Condition (a) in the order of R71. -/
def comparisonsA (t : Table) : List Comparison :=
  (List.range 4).flatMap fun g => (List.range 13).flatMap fun b =>
    [⟨b * 4 + g, (t.point b g).torqueCeiling, (t.point (b + 1) g).torqueCeiling⟩,
      ⟨b * 4 + g, (t.point b g).brakeCeiling, (t.point (b + 1) g).brakeCeiling⟩]

/-- Condition (b) in the order of R71. -/
def comparisonsB (t : Table) : List Comparison :=
  (List.range 14).flatMap fun b => (List.range 3).flatMap fun g =>
    [⟨b * 4 + g, (t.point b g).torqueCeiling, (t.point b (g + 1)).torqueCeiling⟩,
      ⟨b * 4 + g, (t.point b g).brakeCeiling, (t.point b (g + 1)).brakeCeiling⟩]

/-- Condition (c) in the order of R71. -/
def comparisonsC (t : Table) : List Comparison :=
  (List.range 13).flatMap fun b =>
    [⟨56 + b, (t.row b).front, (t.row (b + 1)).front⟩, ⟨56 + b, (t.row b).rear, (t.row (b + 1)).rear⟩]

/-- The whole scan of R71. -/
def comparisons (t : Table) : List Comparison := comparisonsA t ++ comparisonsB t ++ comparisonsC t

/-- A comparison in which the later entry is greater than the earlier one (R71). -/
def Comparison.violated (c : Comparison) : Bool := decide (c.earlier < c.later)

/-- The position of the first violation, if there is one (R71). -/
def firstViolation (t : Table) : Option Nat := ((comparisons t).find? Comparison.violated).map (·.position)

/-! ### TABLE_LOAD (R67 to R72) -/

/-- What a TABLE_LOAD's parameters name (R67, R187). -/
structure LoadRange where
  mask : Word
  first : Nat
  last : Nat
  radius : Bool
  deriving DecidableEq, Repr

/-- The parameters of a TABLE_LOAD (R187): any nonzero radius byte counts as set (R67). -/
def loadRange (r : Request) : LoadRange where
  mask := r.param1
  first := (byteOf r.param2 0).toNat
  last := (byteOf r.param2 1).toNat
  radius := byteOf r.param2 2 != 0

/-- The four checks of R67 in order: the number of the first that fails. -/
def loadCheck (p : LoadRange) : Option Nat :=
  if 16 ≤ p.mask.toNat then some 1
  else if p.last < p.first then some 2
  else if 13 < p.last then some 3
  else if p.mask = 0 ∧ p.radius = false then some 4
  else none

/-- The load names the point P(b, g) (R67). -/
def LoadRange.namesPoint (p : LoadRange) (b g : Nat) : Bool := decide (p.first ≤ b) && decide (b ≤ p.last) && p.mask.getLsbD g

/-- The load names the row Q(b) (R67). -/
def LoadRange.namesRow (p : LoadRange) (b : Nat) : Bool := p.radius && decide (p.first ≤ b) && decide (b ≤ p.last)

/-- The byte address of P(b, g) in the image: 0x0300 + 16 (4b + g) (R186). -/
def pointAt (b g : Nat) : Nat := 0x300 + 16 * (4 * b + g)

/-- The byte address of Q(b) in the image: 0x0680 + 4b (R186). -/
def rowAt (b : Nat) : Nat := 0x680 + 4 * b

/-- The image's fields at the place of a point, as the host wrote them (R186). -/
def imagePoint (m : Memory) (b g : Nat) : EnvelopePoint where
  slipTarget := m.u16At (pointAt b g)
  torqueCeiling := m.u16At (pointAt b g + 2)
  brakeCeiling := m.u16At (pointAt b g + 4)
  frontShare := m.u16At (pointAt b g + 6)
  trailerShare := m.u16At (pointAt b g + 8)

/-- The image's fields at the place of a row (R186). -/
def imageRow (m : Memory) (b : Nat) : RadiusRow := ⟨m.u16At (rowAt b), m.u16At (rowAt b + 2)⟩

/-- A point's fields clamped, each on its own (R69). -/
def EnvelopePoint.clamped (p : EnvelopePoint) : EnvelopePoint where
  slipTarget := clampNat 10 400 p.slipTarget
  torqueCeiling := clampNat 0 1024 p.torqueCeiling
  brakeCeiling := clampNat 500 12000 p.brakeCeiling
  frontShare := clampNat 64 230 p.frontShare
  trailerShare := clampNat 0 128 p.trailerShare

/-- A row's fields clamped (R69). -/
def RadiusRow.clamped (q : RadiusRow) : RadiusRow := ⟨clampNat 29491 32768 q.front, clampNat 29491 32768 q.rear⟩

/-- How many fields of a point the clamp changes (R69). -/
def EnvelopePoint.clampCount (p : EnvelopePoint) : Nat :=
  changed p.slipTarget p.clamped.slipTarget + changed p.torqueCeiling p.clamped.torqueCeiling
    + changed p.brakeCeiling p.clamped.brakeCeiling + changed p.frontShare p.clamped.frontShare
    + changed p.trailerShare p.clamped.trailerShare

/-- How many fields of a row the clamp changes (R69). -/
def RadiusRow.clampCount (q : RadiusRow) : Nat := changed q.front q.clamped.front + changed q.rear q.clamped.rear

/-- The candidate table of a load (R70): the table in use with every named entry replaced by its clamped image values. -/
def candidate (m : Memory) (t : Table) (p : LoadRange) : Table where
  points := Vector.ofFn fun i =>
    if p.namesPoint (i.val / 4) (i.val % 4) then (imagePoint m (i.val / 4) (i.val % 4)).clamped else t.points[i]
  rows := Vector.ofFn fun i => if p.namesRow i.val then (imageRow m i.val).clamped else t.rows[i]

/-- The number of fields the load's clamp changes, over the named entries alone (R69). -/
def loadClamps (m : Memory) (p : LoadRange) : Nat :=
  ((List.range 56).map fun i => if p.namesPoint (i / 4) (i % 4) then (imagePoint m (i / 4) (i % 4)).clampCount else 0).sum
    + ((List.range 14).map fun b => if p.namesRow b then (imageRow m b).clampCount else 0).sum

/-- A load's application (R68, R72): refused with the position of the first violation, or the candidate installed whole. -/
def applyLoad (r : Request) (s : State) : State :=
  let p := loadRange r
  match firstViolation (candidate s.ram s.table p) with
  | some position => finish r .refusedOrder position [] s
  | none =>
    let n := loadClamps s.ram p
    finish r (if n = 0 then .ok else .clamped) (min 255 n) [] { s with table := candidate s.ram s.table p }

/-! ### TABLE_DUMP (R75, R76) -/

/-- The image word `i` of a table: the fields of points and rows at their own places, zero where the image holds no field (R75, R186). -/
def imageOf (t : Table) (i : Nat) : Word :=
  if i < 224 then
    let p := t.point (i / 16) (i / 4 % 4)
    match i % 4 with
    | 0 => pack16 (u16 p.slipTarget) (u16 p.torqueCeiling)
    | 1 => pack16 (u16 p.brakeCeiling) (u16 p.frontShare)
    | 2 => pack16 (u16 p.trailerShare) 0
    | _ => 0
  else if i < 238 then pack16 (u16 (t.row (i - 224)).front) (u16 (t.row (i - 224)).rear)
  else 0

/-- The image words `low` to `high - 1` of a table, in ascending order. -/
def imageSpan (t : Table) (low high : Nat) : List Word := (List.range (high - low)).map fun k => imageOf t (low + k)

/-- The RAM after a dump has written the image words `low` to `high - 1` (R75). -/
def dumpSpan (m : Memory) (t : Table) (low high : Nat) : Memory := m.writeWords (imageWord + low) (imageSpan t low high)

/-- The dump has come to a moment at which another command meets it: it has written some more words, never the last one
(R75). How many is a free value (notes/assumptions/5.md). -/
def dumpReach (written index : Nat) : Nat := max written (min 255 (Config.dumpProgress index))

/-- A dump that is writing, brought to the moment a host read, a host write or a soft reset meets it (R75, R78). -/
def advanceDump (s : State) : State :=
  match s.rqe.execution with
  | some ⟨r, .dumping written⟩ =>
    { s with
      ram := dumpSpan s.ram s.table written (dumpReach written s.freeIndex)
      rqe := { s.rqe with execution := some ⟨r, .dumping (dumpReach written s.freeIndex)⟩ }
      freeIndex := s.freeIndex + 1 }
  | _ => s

/-- A dump's application begins (R75): no word is written yet. -/
def beginDump (r : Request) (s : State) : State := setPhase r (.dumping 0) s

end Sys2Proof.Machine
end

