-- ==== Sys2Proof/Machine/Stages.lean ====
section
/-! DEFINITION. Stages 1 to 9 of a computation (R24), as functions of what the computation took at its frame start (R23) and of
the envelope table. -/

namespace Sys2Proof.Machine

/-- A lane is available: LIVE or HELD in the snapshot (R31). -/
def LaneView.available (v : LaneView) : Bool := v.state == .live || v.state == .held

/-- A snapshot value as the unsigned field it is (R1). -/
def LaneView.unsigned (v : LaneView) (t : Nat) : Nat := (v.slot.getD t 0).toNat

/-- A snapshot value as the signed field it is (R1: the IMU lane). -/
def LaneView.signed (v : LaneView) (t : Nat) : Int := signed16 (v.slot.getD t 0)

/-! ### Stage 2: rate correction (R41, R42) -/

/-- A corrected rate: the bias removed, saturated to ±32,767 (R41). -/
def correctedRate (raw bias : Int) : Int := clampInt (-32767) 32767 (raw - bias)

/-- RATE_CLAMP's conditions for one rate: the raw value at an end of its range, or the difference saturated (R41). -/
def rateClamps (raw bias : Int) : Bool :=
  raw == 32767 || raw == -32767 || raw == -32768 || decide (correctedRate raw bias ≠ raw - bias)

/-- What stage 2 leaves: the corrected rates, 0 without an IMU, and RATE_CLAMP (R41, R42). -/
structure Rates where
  roll : Int
  yaw : Int
  clamped : Bool
  deriving DecidableEq, Repr

/-- Stage 2. -/
def stageRates (imu : LaneView) (biasRoll biasYaw : Int) : Rates :=
  if imu.available then
    ⟨correctedRate (imu.signed 0) biasRoll, correctedRate (imu.signed 1) biasYaw,
      rateClamps (imu.signed 0) biasRoll || rateClamps (imu.signed 1) biasYaw⟩
  else ⟨0, 0, false⟩

/-! ### Stage 3: radius correction and reference speed (R80, R81) -/

/-- Sources of the reference speed (R81). -/
inductive RefSource where
  | none | front | rear
  deriving DecidableEq, Repr

/-- v_ref source codes (R182). -/
def RefSource.code : RefSource → Nat
  | .none => 0 | .front => 1 | .rear => 2

/-- What stage 3 leaves. A corrected speed is `none` where its lane was unavailable (R80). -/
structure Speeds where
  kf : Nat
  kr : Nat
  front : Option Nat
  rear : Option Nat
  source : RefSource
  vRef : Option Nat
  deriving DecidableEq, Repr

/-- A wheel speed corrected for lean (R80). -/
def correctedSpeed (v : LaneView) (k : Nat) : Option Nat := if v.available then some (v.unsigned 0 * k / 32768) else none

/-- The choice of the reference speed (R81). -/
def chooseReference : Option Nat → Option Nat → RefSource × Option Nat
  | some f, _ => (.front, some f)
  | none, some r => (.rear, some r)
  | none, none => (.none, none)

/-- Stage 3, at the magnitude of the previous reported lean (R80). -/
def stageSpeeds (t : Table) (prevLean : Int) (front rear : LaneView) : Speeds :=
  let k := radiusAt t prevLean.natAbs
  let f := correctedSpeed front k.front
  let r := correctedSpeed rear k.rear
  ⟨k.front, k.rear, f, r, (chooseReference f r).1, (chooseReference f r).2⟩

/-! ### Stage 4: lean (R43 to R51) -/

/-- Reference bands (R45). -/
inductive Band where
  | none | kinematic | gravity
  deriving DecidableEq, Repr

/-- Reference band codes (R182). -/
def Band.code : Band → Nat
  | .none => 0 | .kinematic => 1 | .gravity => 2

/-- The reference band (R45). -/
def chooseBand (imuAvailable : Bool) (vRef : Option Nat) (az : Int) (vKinMin vAccMax : Nat) : Band :=
  match imuAvailable, vRef with
  | false, _ => .none
  | true, none => .none
  | true, some v =>
    if vKinMin ≤ v then .kinematic else if v < vAccMax ∧ 4904 ≤ az then .gravity else .none

/-- The cap of a tangent, in Q12 (R46, R47). -/
def tauCap : Nat := 9216

/-- The kinematic tangent before its cap (R46). -/
def kinematicTau (yawC : Int) (vRef : Nat) : Nat := yawC.natAbs * vRef * 12230 / 2 ^ 24

/-- The gravity tangent before its cap (R47, R55). -/
def gravityTau (ay az : Int) : Nat := (truncDiv ((ay.natAbs : Int) * 4096) az).toNat

/-- The arctangent table T (R48). -/
def arctanTable : List Nat := [0, 1404, 2657, 3687, 4500, 5134, 5631, 6026, 6343, 6604]

/-- The angle of a tangent in 0..9216, in 0.01° (R48). -/
def angleOf (tau : Nat) : Nat :=
  let k := tau / 1024
  let f := tau - 1024 * k
  if 9 ≤ k then 6604
  else arctanTable.getD k 0 + (arctanTable.getD (k + 1) 0 - arctanTable.getD k 0) * f / 1024

/-- A magnitude with the sign of another value, 0 counted as positive (R46, R47). -/
def withSignOf (ref : Int) (magnitude : Nat) : Int := if ref < 0 then -(magnitude : Int) else magnitude

/-- What stage 4 leaves. -/
structure LeanResult where
  band : Band
  tau : Nat
  tauClamped : Bool
  leanFine : Int
  leanClamped : Bool
  deriving DecidableEq, Repr

/-- The tangent of a band and whether the kinematic tangent had to be capped (R46, R47). -/
def bandTau (band : Band) (yawC : Int) (vRef : Nat) (ay az : Int) : Nat × Bool :=
  match band with
  | .none => (0, false)
  | .kinematic => (min tauCap (kinematicTau yawC vRef), decide (tauCap < kinematicTau yawC vRef))
  | .gravity => (min tauCap (gravityTau ay az), false)

/-- The reference angle in 10⁻⁵ degree (R48). -/
def refFine (band : Band) (tau : Nat) (yawC ay : Int) : Int :=
  withSignOf (match band with | .gravity => ay | _ => yawC) (angleOf tau * 1000)

/-- The correction of R49, none in the band NONE. -/
def corrected (band : Band) (pred ref : Int) (alpha : Nat) : Int :=
  match band with
  | .none => pred
  | _ => pred + truncDiv ((ref - pred) * alpha) 65536

/-- The clamp of lean_fine (R50). -/
def leanLimit : Int := 6500000

/-- The prediction (R43, R44). -/
def predict (imuAvailable : Bool) (leanPrev rollC : Int) (dtMs : Nat) : Int := if imuAvailable then leanPrev + rollC * dtMs else leanPrev

/-- Stage 4. -/
def stageLean (mode : ModeRecord) (imu : LaneView) (leanPrev : Int) (rates : Rates) (dtMs : Nat) (vRef : Option Nat) : LeanResult :=
  let ay := imu.signed 3
  let az := imu.signed 4
  let band := chooseBand imu.available vRef az mode.vKinMin mode.vAccMax
  let tau := bandTau band rates.yaw (vRef.getD 0) ay az
  let pred := predict imu.available leanPrev rates.roll dtMs
  let raw := corrected band pred (refFine band tau.1 rates.yaw ay) mode.alpha
  ⟨band, tau.1, tau.2, clampInt (-leanLimit) leanLimit raw, decide (clampInt (-leanLimit) leanLimit raw ≠ raw)⟩

/-- The reported lean of a lean_fine, in 0.01° (R40, R51). -/
def reportedLean (leanFine : Int) : Int := truncDiv leanFine 1000

/-! ### Load and trailer (R106) -/

/-- Trailer presence (R106). -/
def trailerPresent (trailer : LaneView) : Bool := trailer.available && trailer.unsigned 0 == 1

/-- The effective class (R106). -/
def effectiveClass (load : LoadRecord) (present : Bool) : LoadClass := if present then .trailer else load.cls

/-- The factors of a class (R105). -/
def LoadRecord.factors (r : LoadRecord) : LoadClass → ClassFactors
  | .solo => r.solo
  | .pillion => r.pillion
  | .pillionLuggage => r.pillionLuggage
  | .trailer => r.trailer

/-! ### Stage 6: slip, regulator, torque ceiling (R83 to R90) -/

/-- Slip statuses (R83). -/
inductive SlipStatus where
  | absent | computed | speedLow
  deriving DecidableEq, Repr

/-- Slip status codes (R182). -/
def SlipStatus.code : SlipStatus → Nat
  | .absent => 0 | .computed => 1 | .speedLow => 2

/-- The slip before saturation (R84). -/
def rawSlip (rear vRef : Nat) : Int := truncDiv (((rear : Int) - vRef) * 1000) vRef

/-- The slip status, the slip carried on (0 unless COMPUTED), and whether it had to be saturated (R83, R84). -/
def slipOf (front rear : Option Nat) (slipVMin : Nat) : SlipStatus × Int × Bool :=
  match front, rear with
  | some f, some r =>
    if f < slipVMin then (.speedLow, 0, false)
    else (.computed, clampInt (-999) 999 (rawSlip r f), decide (clampInt (-999) 999 (rawSlip r f) ≠ rawSlip r f))
  | _, _ => (.absent, 0, false)

/-- The regulator step before its clamp (R86). -/
def regulatorStep (mode : ModeRecord) (status : SlipStatus) (slip : Int) (target rPrev : Nat) : Int :=
  if status = .computed ∧ 0 < slip - target then rPrev + truncDiv ((slip - target) * mode.ki) 256 else rPrev - mode.rel

/-- R after stage 6: the clamped step in ACTIVE, 0 in every other state at start (R86 to R88). -/
def reductionAfter (mode : ModeRecord) (start : OpState) (status : SlipStatus) (slip : Int) (target rPrev : Nat) : Nat :=
  if start = .active then (clampInt 0 1024 (regulatorStep mode status slip target rPrev)).toNat else 0

/-- T_load (R90 step 1). -/
def torqueLoad (tEnv tf : Nat) : Nat := tEnv * tf / 256

/-- The torque ceiling C (R90 step 2). -/
def torqueCeiling (tEnv tf r : Nat) : Nat := (clampInt 0 1024 ((torqueLoad tEnv tf : Int) - r)).toNat

/-! ### Stage 7: braking (R107, R108) -/

/-- The brake ceiling D (R107). -/
def brakeCeiling (bEnv bf : Nat) : Nat := bEnv * bf / 256

/-- The longitudinal acceleration stage 7 uses: 0 without an IMU (R108). -/
def usedAx (imu : LaneView) : Int := if imu.available then imu.signed 2 else 0

/-- The trailer brake level (R108). -/
def trailerLevel (cls : LoadClass) (ax : Int) (d tsEnv : Nat) : Nat :=
  if cls = .trailer then (min (max (-ax) 0) (d : Int)).toNat * tsEnv / 256 else 0

/-! ### Stage 8: the grip observer (R99 to R102) -/

/-- The bucket moved by the regulator (R100). -/
def moveBucket (mode : ModeRecord) (rPrev r bucket : Nat) : Nat :=
  if r = 0 then bucket - 1 else if rPrev = 0 then min 1023 (bucket + mode.episodeWeight) else bucket

/-- The step of R101: a bucket of 256 or more raises the observed grade and starts afresh. -/
def spill (o : Observer) : Observer := if 256 ≤ o.bucket then ⟨0, 0, min 3 (o.observed + 1)⟩ else o

/-- The quiet count and the restore of R102. -/
def settle (mode : ModeRecord) (r : Nat) (o : Observer) : Observer :=
  let quiet := if r = 0 ∧ o.bucket = 0 then satInc 65535 o.quiet else 0
  if mode.restoreFrames ≤ quiet ∧ 0 < o.observed then ⟨o.bucket, 0, o.observed - 1⟩ else ⟨o.bucket, quiet, o.observed⟩

/-- Stage 8: R100 to R102 in ACTIVE, all three values held in any other state at start (R99). -/
def observe (mode : ModeRecord) (start : OpState) (rPrev r : Nat) (o : Observer) : Observer :=
  if start = .active then settle mode r (spill { o with bucket := moveBucket mode rPrev r o.bucket }) else o

/-! ### The computation as a whole -/

/-- The results of stages 1 to 9. -/
structure Results where
  rates : Rates
  speeds : Speeds
  lean : LeanResult
  prevLean : Int
  newLean : Int
  activeGrade : Nat
  env : EnvelopePoint
  slipStatus : SlipStatus
  slip : Int
  reduction : Nat
  c : Nat
  present : Bool
  cls : LoadClass
  factors : ClassFactors
  d : Nat
  level : Nat
  observer : Observer
  causes : Byte
  escalates : Bool
  verdicts : Byte
  deriving DecidableEq, Repr

/-- A lane that is LOST or SILENT in the snapshot (R28, R36). -/
def LaneView.gone (v : LaneView) : Bool := !v.available

/-- INPUT_HELD: some lane is HELD in the snapshot (R28). -/
def anyHeld (s : Snapshot) : Bool :=
  s.imu.state == .held || s.front.state == .held || s.rear.state == .held || s.engine.state == .held || s.trailer.state == .held

/-- INPUT_LOST: the IMU, FRONT or REAR lane is LOST or SILENT in the snapshot (R28). -/
def inputLost (s : Snapshot) : Bool := s.imu.gone || s.front.gone || s.rear.gone

/-- A lane enabled at the frame start that is not LIVE in the snapshot (R31, V5). -/
def LaneView.degraded (v : LaneView) : Bool := v.enable && v.state != .live

/-- LANE_DEGRADED (R31). -/
def anyDegraded (s : Snapshot) : Bool :=
  s.imu.degraded || s.front.degraded || s.rear.degraded || s.engine.degraded || s.trailer.degraded

/-- The active grade of a computation (R98). -/
def activeGrade (mode : ModeRecord) (o : Observer) : Nat := max mode.modeGrade o.observed

/-- A computation escalates (R30). -/
def escalates (mode : ModeRecord) (start : OpState) (causes : Byte) : Bool :=
  start == .active && decide (causes &&& mode.escalationMask ≠ 0)

/-- Stages 1 to 9 of a computation (R24), in their order. -/
def compute (c : Computation) (t : Table) : Results :=
  let snap := c.snapshot
  let rates := stageRates snap.imu c.biasRoll c.biasYaw
  let prevLean := reportedLean c.leanPrev
  let speeds := stageSpeeds t prevLean snap.front snap.rear
  let lean := stageLean c.mode snap.imu c.leanPrev rates c.dtMs speeds.vRef
  let newLean := reportedLean lean.leanFine
  let grade := activeGrade c.mode c.observer
  let env := envelopeAt t newLean.natAbs grade
  let present := trailerPresent snap.trailer
  let cls := effectiveClass c.load present
  let factors := c.load.factors cls
  let slip := slipOf speeds.front speeds.rear c.mode.slipVMin
  let r := reductionAfter c.mode c.stateAtStart slip.1 slip.2.1 env.slipTarget c.rPrev
  let cc := torqueCeiling env.torqueCeiling factors.tf r
  let d := brakeCeiling env.brakeCeiling factors.bf
  let level := trailerLevel cls (usedAx snap.imu) d env.trailerShare
  let observer := observe c.mode c.stateAtStart c.rPrev r c.observer
  let causes :=
    c.causes ||| whenBit rates.clamped causeRateClamp ||| whenBit lean.tauClamped causeTauClamp
      ||| whenBit lean.leanClamped causeLeanClamp ||| whenBit slip.2.2 causeSlipSat
      ||| whenBit (slip.1 == .speedLow) causeSpeedLow ||| whenBit (c.stateAtStart == .active && r == 1024) causeRegSat
      ||| whenBit (anyHeld snap) causeInputHeld ||| whenBit (inputLost snap) causeInputLost
  let esc := escalates c.mode c.stateAtStart causes
  let verdicts :=
    byteOfBits (decide (c.mode.leanWarn ≤ newLean.natAbs)) (decide (0 < r))
      (snap.engine.available && decide (cc < snap.engine.unsigned 0))
      (snap.imu.available && decide ((d : Int) < -(snap.imu.signed 2)))
      (decide (c.mode.modeGrade < observer.observed)) (anyDegraded snap)
      (c.stateAtStart == .limp || esc) (present != (c.load.cls == .trailer))
  { rates := rates, speeds := speeds, lean := lean, prevLean := prevLean, newLean := newLean, activeGrade := grade, env := env,
    slipStatus := slip.1, slip := slip.2.1, reduction := r, c := cc, present := present, cls := cls, factors := factors,
    d := d, level := level, observer := observer, causes := causes, escalates := esc, verdicts := verdicts }

end Sys2Proof.Machine
end

