-- ==== Sys2Proof/Machine/Control.lean ====
section
/-! DEFINITION. The State Controller (07_operating_states_and_calibration.md): changes of operating state, MODE_GO in each
state, the calibration, and LIMP. -/

namespace Sys2Proof.Machine

/-- The SC with another operating state; the recovery count is set to 0 on every entry to and exit from LIMP (R130, R131, R121), and
an entry to ACTIVE is marked: a stay begins (R88, R99, R126; notes/assumptions/22.md). -/
def StateController.enter (c : StateController) (new : OpState) : StateController :=
  { c with
    op := new
    recovery := if c.op = .limp ∨ new = .limp then 0 else c.recovery
    activeEntered := if new = .active then true else c.activeEntered }

/-- A change of operating state: made, reported by a STATE notice, and on an entry to LIMP SUMMARY.LIMP set (R116). -/
def changeState (new : OpState) (reason : StateReason) (s : State) : State :=
  let s1 := offerNotice .state new.code (u32 s.sc.op.code) (u32 reason.code) { s with sc := s.sc.enter new }
  if new = .limp then raiseSummary limpBit s1 else s1

/-- The escalation count and latch cleared (R30). -/
def clearEscalation (s : State) : State := { s with fcu := { s.fcu with escCount := 0, escLatch := false } }

/-! ### Calibration (R123 to R128) -/

/-- The SC's calibration frame count and sums set to 0 (R128). -/
def StateController.noCalibration (c : StateController) : StateController := { c with calCount := 0, sums := zeroSums }

/-- A calibration starts (R123). A computation in flight is not a calibration frame of it (R124). -/
def startCalibration (thenTarget : OpState) (s : State) : State :=
  changeState .calibrating .modeGo
    { s with
      sc := { s.sc with prior := some s.sc.op, thenTarget := some thenTarget, calCount := 0, sums := zeroSums }
      fcu := { s.fcu with inFlight := s.fcu.inFlight.map fun c => { c with calFrame := false } } }

/-- The prior state of the running calibration (R126); a calibration always has one (R123). -/
def StateController.priorState (c : StateController) : OpState := c.prior.getD .dormant

/-- A CAL notice of a calibration that did not succeed (R128). -/
def calFailedNotice (why : CalFailure) (s : State) : State :=
  offerNotice .cal why.code (u32 s.sc.calCount) (u32 s.sc.priorState.code) s

/-- A calibration ends without success (R126, R127): the calibrating MODE_GO completes CAL_FAILED with the count reached, a CAL
notice and then a STATE notice are offered, and the count and sums are set to 0 (R128). -/
def failCalibration (why : CalFailure) (target : OpState) (reason : StateReason) (s : State) : State :=
  let s1 := completeLong .calibration .calFailed why.code [u32 s.sc.calCount] s
  let s2 := calFailedNotice why s1
  changeState target reason { s2 with sc := s2.sc.noCalibration }

/-- The initial lean of a calibration's averages, in 0.01° (R55). -/
def initialLean (ayAvg azAvg : Int) : Int := withSignOf ayAvg (min 6500 (angleOf (min tauCap (gravityTau ayAvg azAvg))))

/-- The four averages of a calibration (R125). -/
def CalSums.averages (s : CalSums) : CalSums := ⟨truncDiv s.roll 256, truncDiv s.yaw 256, truncDiv s.ay 256, truncDiv s.az 256⟩

/-- The lean state and R set by a calibration's success (R55, R95). -/
def FrameUnit.calibrated (f : FrameUnit) (avg : CalSums) : FrameUnit :=
  { f with
    leanFine := initialLean avg.ay avg.az * 1000
    biasRoll := avg.roll
    biasYaw := avg.yaw
    calValid := true
    reduction := 0 }

/-- A calibration succeeds (R125, R128). -/
def succeedCalibration (avg : CalSums) (s : State) : State :=
  let lean := initialLean avg.ay avg.az
  let s1 : State := { s with fcu := s.fcu.calibrated avg }
  let s2 :=
    completeLong .calibration .ok 0 [pack16 (toS16 avg.roll) (toS16 avg.yaw), pack16 (toS16 lean) 0] s1
  let s3 := offerNotice .cal 0 (pack16 (toS16 avg.roll) (toS16 avg.yaw)) (toS32 lean) s2
  changeState (s.sc.thenTarget.getD .standby) .calSuccess { s3 with sc := s3.sc.noCalibration }

/-- A calibration frame of still, live lanes accumulated (R124 step 3). -/
def StateController.accumulate (c : StateController) (imu : LaneView) : StateController :=
  { c with
    calCount := c.calCount + 1
    sums := ⟨c.sums.roll + imu.signed 0, c.sums.yaw + imu.signed 1, c.sums.ay + imu.signed 3, c.sums.az + imu.signed 4⟩ }

/-- A calibration frame's lanes are all LIVE (R124 step 1). -/
def calLanesLive (p : Snapshot) : Bool := p.imu.state == .live && p.front.state == .live && p.rear.state == .live

/-- A calibration frame shows motion (R124 step 2). -/
def calMoving (p : Snapshot) : Bool :=
  decide (50 ≤ p.front.unsigned 0) || decide (50 ≤ p.rear.unsigned 0) || decide (500 ≤ (p.imu.signed 0).natAbs)
    || decide (500 ≤ (p.imu.signed 1).natAbs)

/-- A calibration frame received and judged (R124, R125). -/
def calibrationFrame (p : Snapshot) (s : State) : State :=
  if !calLanesLive p then failCalibration .lanes s.sc.priorState .calFailed s
  else if calMoving p then failCalibration .motion s.sc.priorState .calFailed s
  else
    let s1 : State := { s with sc := s.sc.accumulate p.imu }
    if s1.sc.calCount < 256 then s1
    else if s1.sc.sums.averages.az < 4904 then failCalibration .attitude s.sc.priorState .calFailed s1
    else succeedCalibration s1.sc.sums.averages s1

/-! ### The LIMP report (R36, R130, R131) -/

/-- A report that carries none of the four facts (R121, R131). -/
def LimpReport.clean (r : LimpReport) : Bool :=
  !r.imuUnavailable && !r.referenceUnavailable && !r.maskedCause && !r.escalation

/-- The LIMP report of a computation (R36). -/
def limpReport (c : Computation) (r : Results) : LimpReport where
  imuUnavailable := c.snapshot.imu.gone
  referenceUnavailable := r.speeds.vRef.isNone
  maskedCause := decide (r.causes &&& c.mode.escalationMask ≠ 0)
  escalation := r.escalates

/-- The motion data handed with it: v_ref as published, 0 when unavailable (R36, R120). -/
def motionData (c : Computation) (r : Results) : MotionData :=
  ⟨r.speeds.vRef.getD 0, c.snapshot.front.state, c.snapshot.rear.state⟩

/-- The recovery count moved by a report in LIMP (R131 step 1). -/
def recoveryAfter (report : LimpReport) (n : Nat) : Nat := if report.clean then satInc 65535 n else 0

/-- A report judged in LIMP (R131). -/
def recoverFromLimp (report : LimpReport) (s : State) : State :=
  let n := recoveryAfter report s.sc.recovery
  let s1 : State := { s with sc := { s.sc with recovery := n } }
  if s.fcu.mode.recoveryFrames ≤ n ∧ s.fcu.escLatch = false then changeState .active .recovery s1 else s1

/-- Step 4 of a completion: the report stored, then judged by the state the SC holds at that moment (R130, R131, R124). -/
def takeReport (c : Computation) (r : Results) (s : State) : State :=
  let report := limpReport c r
  let s1 : State := { s with sc := { s.sc with lastReport := some report, lastMotion := some (motionData c r) } }
  match s.sc.op with
  | .dormant => s1
  | .standby => s1
  | .calibrating => if c.calFrame then calibrationFrame c.snapshot s1 else s1
  | .active =>
    if report.imuUnavailable || report.referenceUnavailable || report.escalation then changeState .limp .limpEntry s1 else s1
  | .limp => recoverFromLimp report s1

/-! ### MODE_GO (R118 to R123) -/

/-- The machine is judged moving: the detail of REFUSED_MOVING, none when it is judged still (R120). -/
def judgedMoving : Option MotionData → Option Nat
  | none => some 2
  | some d => if d.front ≠ .live ∨ d.rear ≠ .live then some 2 else if 50 ≤ d.vRef then some 1 else none

/-- The detail of REFUSED_CONDITION, none when the last report is clean (R121). -/
def refusedCondition : Option LimpReport → Option Nat
  | none => some 0
  | some r =>
    if r.clean then none else some (bitOf r.imuUnavailable + 2 * bitOf r.referenceUnavailable + 4 * bitOf r.maskedCause)

/-- MODE_GO with target DORMANT (R119 to R122). -/
def goDormant (s : State) : State :=
  match s.sc.op with
  | .dormant => s
  | .calibrating => failCalibration .dormant .dormant .modeGo s
  | .standby => changeState .dormant .modeGo s
  | .active => changeState .dormant .modeGo s
  | .limp => changeState .dormant .modeGo s

/-- MODE_GO with target STANDBY (R119 to R122). -/
def goStandby (r : Request) (s : State) : State :=
  match s.sc.op with
  | .dormant =>
    if s.fcu.calValid then finish r .ok 0 [] (changeState .standby .modeGo s) else finish r .refusedUncalibrated 0 [] s
  | .calibrating => finish r .refusedBusy 0 [] s
  | .standby => finish r .ok 0 [] s
  | .active => finish r .ok 0 [] (changeState .standby .modeGo s)
  | .limp => finish r .ok 0 [] (changeState .standby .modeGo s)

/-- MODE_GO with target ACTIVE (R119 to R122); accepted, it clears the escalation count and latch (R118, R30). -/
def goActive (r : Request) (s : State) : State :=
  match s.sc.op with
  | .dormant =>
    if s.fcu.calValid then finish r .ok 0 [] (changeState .active .modeGo (clearEscalation s))
    else finish r .refusedUncalibrated 0 [] s
  | .calibrating => finish r .refusedBusy 0 [] s
  | .standby => finish r .ok 0 [] (changeState .active .modeGo (clearEscalation s))
  | .active => finish r .ok 0 [] (clearEscalation s)
  | .limp =>
    match refusedCondition s.sc.lastReport with
    | some detail => finish r .refusedCondition detail [] s
    | none => finish r .ok 0 [] (changeState .active .modeGo (clearEscalation s))

/-- A MODE_GO to CALIBRATE accepted: the calibration starts and the request stays TAKEN (R123). -/
def acceptCalibration (r : Request) (s : State) : State := stayTaken r .calibration (startCalibration (thenTargetOf r) s)

/-- MODE_GO with target CALIBRATE, its parameters checked (R119 to R123). -/
def goCalibrate (r : Request) (s : State) : State :=
  match modeGoCheck r with
  | some detail => finish r .refusedRange detail [] s
  | none =>
    match s.sc.op with
    | .dormant => acceptCalibration r s
    | .calibrating => finish r .refusedBusy 0 [] s
    | .limp => finish r .refusedState 0 [] s
    | .standby =>
      match judgedMoving s.sc.lastMotion with
      | some detail => finish r .refusedMoving detail [] s
      | none => acceptCalibration r s
    | .active =>
      match judgedMoving s.sc.lastMotion with
      | some detail => finish r .refusedMoving detail [] s
      | none => acceptCalibration r s

/-- ABANDON with target TRANSITION (R127). -/
def abandonCalibration (r : Request) (s : State) : State :=
  match s.sc.op with
  | .calibrating => finish r .ok 0 [] (failCalibration .abandoned s.sc.priorState .abandon s)
  | _ => finish r .refusedState 0 [] s

end Sys2Proof.Machine
end

