-- ==== Sys2Proof/Machine/Lanes.lean ====
section
/-! DEFINITION. The Sensor Lane Receiver (01_sensor_lanes.md): word checks, burst assembly, acceptance, ages and lane states, the
snapshot, the adoption of lane settings and the clearing of errors. -/

namespace Sys2Proof.Machine

/-- The context of one lane. -/
def Lanes.get (ls : Lanes) : LaneId → Lane
  | .imu => ls.imu
  | .front => ls.front
  | .rear => ls.rear
  | .engine => ls.engine
  | .trailer => ls.trailer

/-- The contexts with one lane's replaced. -/
def Lanes.set (ls : Lanes) (l : LaneId) (x : Lane) : Lanes :=
  match l with
  | .imu => { ls with imu := x }
  | .front => { ls with front := x }
  | .rear => { ls with rear := x }
  | .engine => { ls with engine := x }
  | .trailer => { ls with trailer := x }

/-! ### Errors, states and ages -/

/-- One error: its flag is set and the count rises by one, saturating at 255 (R9). -/
def Lane.note (x : Lane) (e : LaneError) : Lane := { x with flags := x.flags.set e, errorCount := satInc 255 x.errorCount }

/-- LIVE, HELD or LOST by the age, the expected interval and the hold limit (R11). -/
def stateByAge (age expected hold : Nat) : LaneState :=
  if age ≤ expected then .live else if age ≤ hold then .held else .lost

/-- The lane's state re-derived from its age and settings; a SILENT lane stays SILENT (R10, R11). -/
def Lane.rederive (x : Lane) : Lane :=
  { x with state := if x.state = .silent then .silent else stateByAge x.age x.settings.expected x.settings.hold }

/-- A change of lane state is reported: a LANE notice, and SUMMARY.LANE_LOST on an entry to LOST (R12). -/
def reportLane (l : LaneId) (before after : LaneState) (s : State) : State :=
  if before = after then s
  else if after = .lost then raiseSummary laneLostBit (offerNotice .lane (laneIndex l) (u32 after.code) (u32 before.code) s)
  else offerNotice .lane (laneIndex l) (u32 after.code) (u32 before.code) s

/-- One lane's context replaced, and its change of state, if any, reported (R12). -/
def updateLane (l : LaneId) (x : Lane) (s : State) : State :=
  reportLane l (s.lanes.get l).state x.state { s with lanes := s.lanes.set l x }

/-! ### Bursts -/

/-- The step check of R7 passes. -/
def stepOk (x : Lane) (v : Half) : Bool :=
  match x.settings.maxStep with
  | none => true
  | some limit => decide (absDiff v.toNat (x.slot.getD 0 0).toNat ≤ limit)

/-- A wheel burst is plausible: in range, and within the step check while the lane is LIVE (R6, R7). -/
def wheelPlausible (x : Lane) (v : Half) : Bool :=
  decide (v.toNat ≤ 10000) && (decide (x.state ≠ .live) || stepOk x v)

/-- The plausibility of a complete burst by the rule of its lane (R6). -/
def plausible (l : LaneId) (x : Lane) (values : List Half) : Bool :=
  match l with
  | .imu => true
  | .front => wheelPlausible x (values.getD 0 0)
  | .rear => wheelPlausible x (values.getD 0 0)
  | .engine => decide ((values.getD 0 0).toNat ≤ 1024)
  | .trailer => decide ((values.getD 0 0).toNat ≤ 1)

/-- A burst is accepted: slot replaced whole, age 0, LIVE (R8). -/
def Lane.accept (x : Lane) (values : List Half) : Lane := { x with slot := values, age := 0, state := .live, burst := none }

/-- A complete burst is accepted or rejected; either way the assembler returns to NO_BURST (R6). -/
def Lane.complete (l : LaneId) (x : Lane) (values : List Half) : Lane :=
  if plausible l x values then x.accept values else { x.note .implausible with burst := none }

/-- The open burst grown by a value: complete when all n values are there, OPEN otherwise (R4, R5). -/
def Lane.append (l : LaneId) (x : Lane) (values : List Half) : Lane :=
  if channelCount l ≤ values.length then x.complete l values else { x with burst := some values }

/-- A good word with the marker bit set (R4). -/
def Lane.markerWord (l : LaneId) (x : Lane) (tag : Nat) (v : Half) : Lane :=
  if tag = 0 then
    match x.burst with
    | none => x.append l [v]
    | some _ => (x.note .short).append l [v]
  else { x.note .tag with burst := none }

/-- A good word with the marker bit clear (R5). -/
def Lane.plainWord (l : LaneId) (x : Lane) (tag : Nat) (v : Half) : Lane :=
  match x.burst with
  | none => x.note .stray
  | some vs => if tag = vs.length then x.append l (vs ++ [v]) else { x.note .tag with burst := none }

/-- A word that fails a check: its flags and counts, any open burst discarded, the receiver to HUNT after a good stop bit and to
IDLE_WAIT after a bad one (R3). -/
def Lane.badWord (x : Lane) (parityOk stopOk : Bool) : Lane :=
  let a := if parityOk then x else x.note .parity
  let b := if stopOk then a else a.note .frame
  { b with burst := none, rx := if stopOk then .hunt else .idleWait }

/-- A lane word whose stop bit has been decided (R3). A start bit decided high makes the edge a false start (R2). -/
def Lane.word (l : LaneId) (x : Lane) (w : LaneWord) : Lane :=
  if w.start then { x with rx := .hunt }
  else if w.parityOk && w.stop then
    let y : Lane := { x with rx := .hunt }
    if w.marker then y.markerWord l w.tag w.value else y.plainWord l w.tag w.value
  else x.badWord w.parityOk w.stop

/-! ### Frame start -/

/-- A lane at a frame start: age up by one, saturating at 255, and the state re-derived (R10). -/
def Lane.aged (x : Lane) : Lane := { x with age := satInc 255 x.age }.rederive

/-- What the snapshot holds of a lane (R10, R23). -/
def Lane.view (x : Lane) : LaneView := ⟨x.slot, x.age, x.state, x.settings.enable⟩

/-- The snapshot of all five lanes as they stand (R10). -/
def Lanes.snapshot (ls : Lanes) : Snapshot := ⟨ls.imu.view, ls.front.view, ls.rear.view, ls.engine.view, ls.trailer.view⟩

/-- All five lanes aged at a frame start, their notices in lane index order (R10, R12). -/
def ageLanes (s : State) : State := allLanes.foldl (fun t l => updateLane l (t.lanes.get l).aged t) s

/-! ### Adoption and clearing -/

/-- The byte address of a lane's record: 0x0160 + 8L (R184). -/
def laneRecordAt (l : LaneId) : Nat := 0x160 + 8 * laneIndex l

/-- A lane's new settings, read and clamped from its record, and the number of fields the clamp changed (R14). The hold limit is
clamped against the clamped expected interval; max_step is read for FRONT and REAR alone. -/
def readLaneSettings (m : Memory) (l : LaneId) (old : LaneSettings) : LaneSettings × Nat :=
  let a := laneRecordAt l
  let enable := m.u8At a
  let rate := m.u8At (a + 1)
  let e := m.u8At (a + 2)
  let h := m.u8At (a + 3)
  let step := m.u16At (a + 4)
  let rate' := min 3 rate
  let e' := clampNat 1 16 e
  let h' := max e' h
  let step' := clampNat 1 2000 step
  let n := changed enable (min 1 enable) + changed rate rate' + changed e e' + changed h h'
  match old.maxStep with
  | none => (⟨decide (enable ≠ 0), rate', e', h', none⟩, n)
  | some _ => (⟨decide (enable ≠ 0), rate', e', h', some step'⟩, n + changed step step')

/-- A lane takes new settings, acting on what changed (R15, R16): disabled, its receiver stops and it is SILENT; enabled from
disabled, its receiver starts in IDLE_WAIT and it stays SILENT; at a new rate, the burst and any word in reception are
abandoned; the state is re-derived. Age, slot, flags and count are kept. -/
def Lane.adopt (x : Lane) (new : LaneSettings) : Lane :=
  if !new.enable then { x with settings := new, rx := .off, burst := none, state := .silent }
  else if !x.settings.enable then { x with settings := new, rx := .idleWait, burst := none, state := .silent }
  else if x.settings.rate ≠ new.rate then { x with settings := new, rx := .idleWait, burst := none }.rederive
  else { x with settings := new }.rederive

/-- The lane record adopted, lanes in order L0 to L4 (R15). -/
def adoptLanes (s : State) : State :=
  allLanes.foldl (fun t l => updateLane l ((t.lanes.get l).adopt (readLaneSettings s.ram l (t.lanes.get l).settings).1) t) s

/-- The number of lane-record fields a clamp changes (R14, R167). -/
def laneClamps (s : State) : Nat := (allLanes.map fun l => (readLaneSettings s.ram l (s.lanes.get l).settings).2).sum

/-- A lane's errors cleared (R17). -/
def Lane.cleared (x : Lane) : Lane := { x with flags := noFlags, errorCount := 0 }

/-- All five lanes' error flags and counts cleared (R17). -/
def clearLanes (s : State) : State :=
  { s with
    lanes :=
      ⟨s.lanes.imu.cleared, s.lanes.front.cleared, s.lanes.rear.cleared, s.lanes.engine.cleared, s.lanes.trailer.cleared⟩ }

/-- One lane's receiver moved to another state. -/
def setLaneRx (l : LaneId) (rx : RxState) (s : State) : State := { s with lanes := s.lanes.set l { s.lanes.get l with rx := rx } }

end Sys2Proof.Machine
end

