-- ==== Sys2Proof/Machine/Link.lean ====
section
/-! DEFINITION. The Actuator Link Controller (08_the_actuator_link.md): messages and their check, deposits, the arbiter, the
endings of a transaction, health, the channel actions and the link record. -/

namespace Sys2Proof.Machine

/-- One channel of the ALC. -/
def LinkController.get (a : LinkController) : ChannelId → Channel
  | .engine => a.engine
  | .brake => a.brake
  | .trailer => a.trailer

/-- The ALC with one channel replaced. -/
def LinkController.set (a : LinkController) (c : ChannelId) (x : Channel) : LinkController :=
  match c with
  | .engine => { a with engine := x }
  | .brake => { a with brake := x }
  | .trailer => { a with trailer := x }

/-- One channel replaced in the state. -/
def setChannel (c : ChannelId) (x : Channel) (s : State) : State := { s with alc := s.alc.set c x }

/-- A channel's adopted service interval (R151). -/
def LinkRecord.interval (r : LinkRecord) : ChannelId → Nat
  | .engine => r.engineInterval
  | .brake => r.brakeInterval
  | .trailer => r.trailerInterval

/-! ### Messages (R137, R138, R191, R192) -/

/-- One shift of the check register toward its most significant bit (R138 step 3). -/
def crcShift (c : Byte) : Byte := if c.msb then (c <<< 1) ^^^ 0x07 else c <<< 1

/-- One byte covered by the check (R138 steps 2 and 3). -/
def crcByte (c b : Byte) : Byte :=
  crcShift (crcShift (crcShift (crcShift (crcShift (crcShift (crcShift (crcShift (c ^^^ b))))))))

/-- The CRC-8 of the bytes in the order sent (R138). -/
def crc8 (bytes : List Byte) : Byte := bytes.foldl crcByte 0xFF

/-- The four payload bytes of a message; unused bytes are 0 (R191). -/
def Payload.bytes : Payload → List Byte
  | .torque c => [byteOf (u32 c) 0, byteOf (u32 c) 1, 0, 0]
  | .brake d f => [byteOf (u32 d) 0, byteOf (u32 d) 1, u8 f, 0]
  | .trailer l => [byteOf (u32 l) 0, byteOf (u32 l) 1, 0, 0]

/-- A message's address byte: station, toggle, source; bits 7:5 are 0 (R191, R192). -/
def addressByte (c : ChannelId) (toggle : Bool) (src : Source) : Byte := u8 (c.station + 4 * bitOf toggle + 8 * src.code)

/-- The eight bytes of a message completed with its channel's toggle and the check (R137, R138, R191). -/
def messageBytes (c : ChannelId) (toggle : Bool) (msg : Message) : List Byte :=
  let body := [addressByte c toggle msg.source, byteOf msg.frame 0, byteOf msg.frame 1] ++ msg.payload.bytes
  body ++ [crc8 body]

/-- The eight characters of a message in the order sent (R136, R137). -/
def messageCharacters (c : ChannelId) (toggle : Bool) (msg : Message) : List (BitVec 10) :=
  (messageBytes c toggle msg).map characterOf

/-! ### Deposits (R140, R141) -/

/-- A message is due on its channel: its full frame number is a multiple of the service interval (R140). -/
def isDue (a : LinkController) (c : ChannelId) (msg : Message) : Bool := msg.frame.toNat % a.record.interval c == 0

/-- A due deposit that meets a full slot supersedes the message there (R141). -/
def supersede (c : ChannelId) (x : Channel) (old msg : Message) (s : State) : State :=
  let s' := setChannel c { x with slot := some msg, missed := satInc 65535 x.missed, served := false } s
  if x.served then offerNotice .missedService c.station (u32 (satInc 65535 x.missed)) old.frame s' else s'

/-- A due deposit, handled by the channel's state (R140). -/
def dueDeposit (c : ChannelId) (msg : Message) (s : State) : State :=
  let x := s.alc.get c
  match x.state with
  | .stopping => s
  | .stopped => s
  | .idle => setChannel c { x with slot := some msg, state := .pending } s
  | .pending =>
    match x.slot with
    | some old => supersede c x old msg s
    | none => setChannel c { x with slot := some msg } s
  | .outstanding =>
    match x.slot with
    | some old => supersede c x old msg s
    | none => setChannel c { x with slot := some msg } s

/-- One channel's deposit: discarded when it is not due (R140). -/
def deposit (c : ChannelId) (msg : Message) (s : State) : State := if isDue s.alc c msg then dueDeposit c msg s else s

/-! ### The arbiter (R142) -/

/-- The PENDING channel that comes first in the order BRAKE, ENGINE, TRAILER (R142). -/
def firstPending (a : LinkController) : Option ChannelId :=
  if a.brake.state = .pending then some .brake
  else if a.engine.state = .pending then some .engine
  else if a.trailer.state = .pending then some .trailer
  else none

/-- The grant of the link to a channel whose slot holds a message (R142): the ALC drives the message's characters onto the line, at the
rate recorded, and its receiver is turned off, what it held discarded (R136). -/
def grant (c : ChannelId) (msg : Message) (a : LinkController) : LinkController :=
  let x := a.get c
  { a.set c { x with slot := none, state := .outstanding } with
    link := .sending
    outstanding := some ⟨c, msg, x.toggle, messageBytes c x.toggle msg, a.record.rate, a.record.multiplier, none, false⟩
    rx := .off
    address := none
    driven := messageCharacters c x.toggle msg }

/-- The channel the arbiter would grant, with its message: the link FREE and a channel PENDING (R142). -/
def grantable (a : LinkController) : Option (ChannelId × Message) :=
  match a.link, firstPending a with
  | .free, some c => (a.get c).slot.map fun msg => (c, msg)
  | _, _ => none

/-- The ALC after its arbiter was consulted: the channel it would grant is granted, if there is one (R142). -/
def LinkController.consulted (a : LinkController) : LinkController :=
  match grantable a with
  | some (c, msg) => grant c msg a
  | none => a

/-- The arbiter is consulted (R142). -/
def consultArbiter (s : State) : State := { s with alc := s.alc.consulted }

/-! ### The end of a transaction -/

/-- The rate code the receiver works at (R143): the one recorded at the grant, and the adopted one on a FREE link. -/
def LinkController.receiveRate (a : LinkController) : Nat :=
  match a.outstanding with
  | some t => t.rate
  | none => a.record.rate

/-- The link becomes FREE and the outstanding transaction is gone. Where the receiver thereby changes rate, it enters HUNT and
a character or address byte in reception is discarded (R136, R151). -/
def LinkController.freed (a : LinkController) : LinkController :=
  if a.receiveRate = a.record.rate then { a with link := .free, outstanding := none }
  else { a with link := .free, outstanding := none, rx := .hunt, address := none }

/-- The link becomes FREE in the state. -/
def freeLink (s : State) : State := { s with alc := s.alc.freed }

/-- Where a channel goes when its transaction ends (R139, R145 step 6). -/
def endedState (x : Channel) : ChannelState :=
  match x.state with
  | .stopping => .stopped
  | _ => if x.slot.isSome then .pending else .idle

/-- The transaction is removed: the channel moves on, the link becomes FREE, and a STOP that waited on this end
completes OK with the condition as its detail (R145 step 6, R148). -/
def removeTransaction (c : ChannelId) (cond : Condition) (s : State) : State :=
  let x := s.alc.get c
  let s' := freeLink (setChannel c { x with state := endedState x } s)
  match x.state with
  | .stopping => completeLong (.stop c) .ok cond.code [] s'
  | _ => s'

/-- The condition recorded for an acknowledgement's status; a status of 3 is received as STATION_FAULT (R138, R145). -/
def conditionOfStatus : Nat → Condition
  | 0 => .good
  | 1 => .goodClamped
  | _ => .stationFault

/-- A CHANNEL notice (R146). -/
def channelNotice (c : ChannelId) (reason : ChannelReason) (cond : Condition) (s : State) : State :=
  offerNotice .channel c.station (u32 reason.code) (u32 cond.code) s

/-- A good ending, in the order of R145. -/
def endGood (c : ChannelId) (cond : Condition) (s : State) : State :=
  let x := s.alc.get c
  let s1 := setChannel c { x with last := cond, toggle := !x.toggle, misses := 0, served := true, health := .ok } s
  let s2 := if x.health = .ok then s1 else channelNotice c .recovered cond s1
  let s3 := if cond = .stationFault then channelNotice c .stationFault cond s2 else s2
  removeTransaction c cond s3

/-- Health after a miss (R146 step 3). -/
def healthAfterMiss (limit misses : Nat) (h : Health) : Health :=
  if limit ≤ misses then .lost else if h = .lost then .lost else .missing

/-- A miss, in the order of R146. -/
def endMiss (c : ChannelId) (cond : Condition) (s : State) : State :=
  let x := s.alc.get c
  let n := satInc 255 x.misses
  let h := healthAfterMiss s.alc.record.missLimit n x.health
  let s1 := setChannel c { x with last := cond, misses := n, health := h } s
  let s2 := if h = .lost ∧ x.health ≠ .lost then raiseSummary channelLostBit (channelNotice c .lost cond s1) else s1
  removeTransaction c cond s2

/-- A stray acknowledgement (R147). -/
def countStray (s : State) : State := { s with alc := { s.alc with stray := satInc 255 s.alc.stray } }

/-! ### Acknowledgements (R144) -/

/-- An acknowledgement in AWAITING, classified in the order of R144. -/
def classifyAwaited (t : Transaction) (address check : Byte) (s : State) : State :=
  if check ≠ crc8 [address] then endMiss t.channel .badCheck s
  else if (address.extractLsb' 0 2).toNat ≠ t.channel.station then countStray s
  else if address.getLsbD 2 ≠ t.toggle then endMiss t.channel .sequence s
  else endGood t.channel (conditionOfStatus (address.extractLsb' 3 2).toNat) s

/-- An acknowledgement that arrives, classified by the link state (R144). -/
def classifyAck (address check : Byte) (s : State) : State :=
  match s.alc.link, s.alc.outstanding with
  | .free, _ => countStray s
  | .reserved, _ => freeLink s
  | .awaiting, some t => classifyAwaited t address check s
  | .awaiting, none => s
  | .sending, _ => s

/-- The receiver after a character (R136): HUNT after a good one, IDLE_WAIT after a bad one; and the address byte it holds. -/
def setLinkRx (rx : RxState) (address : Option Byte) (s : State) : State :=
  { s with alc := { s.alc with rx := rx, address := address } }

/-! ### Channel actions (R148 to R150) -/

/-- STOP of a channel that is IDLE or PENDING, or was STOPPED (R148). -/
def stopNow (c : ChannelId) (s : State) : State :=
  setChannel c { s.alc.get c with slot := none, state := .stopped } s

/-- STOP of an OUTSTANDING channel: it waits on the transaction (R148). -/
def stopLater (c : ChannelId) (s : State) : State :=
  setChannel c { s.alc.get c with slot := none, state := .stopping } s

/-- The channel has a transaction on the link (R139). -/
def hasTransaction (x : Channel) : Bool := x.state == .outstanding || x.state == .stopping

/-- A RESTART's abandonment of the channel's transaction (R150 step 2). -/
def abandonTransaction (c : ChannelId) (a : LinkController) : LinkController :=
  if hasTransaction (a.get c) then
    { a with
      outstanding := a.outstanding.map fun t => { t with abandoned := true }
      link := if a.link = .awaiting then .reserved else a.link }
  else a

/-- The channel values a RESTART sets; the missed-service count is kept (R150 steps 1, 3 and 4). -/
def restarted (x : Channel) : Channel :=
  { x with slot := none, toggle := false, health := .ok, misses := 0, last := .none, served := true, state := .idle }

/-- A RESTART but for its own completion (R150 steps 1 to 6). -/
def restartChannel (c : ChannelId) (s : State) : State :=
  let x := s.alc.get c
  let s1 : State := { s with alc := (abandonTransaction c s.alc).set c (restarted x) }
  let s2 := channelNotice c .restart .none s1
  if x.state = .stopping then completeLong (.stop c) .abandoned 0 [] s2 else s2

/-! ### The link record and the counts (R151, R152) -/

/-- The link record read and clamped, and the number of fields the clamp changed (R151, R184). -/
def readLinkRecord (m : Memory) : LinkRecord × Nat :=
  let at' := 0x1A0
  let rate := m.u8At at'
  let mult := m.u8At (at' + 1)
  let limit := m.u8At (at' + 2)
  let e := m.u8At (at' + 3)
  let b := m.u8At (at' + 4)
  let t := m.u8At (at' + 5)
  let r : LinkRecord :=
    ⟨clampNat 0 2 rate, clampNat 1 31 mult, clampNat 1 15 limit, clampNat 1 8 e, clampNat 1 8 b, clampNat 1 8 t⟩
  (r, changed rate r.rate + changed mult r.multiplier + changed limit r.missLimit + changed e r.engineInterval
    + changed b r.brakeInterval + changed t r.trailerInterval)

/-- A link record adopted: on a FREE link a change of rate code changes the receiver at once, discarding what is in
reception; on a link in use it waits (R151). -/
def LinkController.adopt (a : LinkController) (r : LinkRecord) : LinkController :=
  if a.link = .free ∧ a.record.rate ≠ r.rate then { a with record := r, rx := .hunt, address := none } else { a with record := r }

/-- The link record adopted from the standing records (R151). -/
def adoptLinkRecord (s : State) : State := { s with alc := s.alc.adopt (readLinkRecord s.ram).1 }

/-- The missed-service counts and the stray count cleared (R152). -/
def clearCounts (s : State) : State :=
  { s with
    alc :=
      { s.alc with
        engine := { s.alc.engine with missed := 0 }
        brake := { s.alc.brake with missed := 0 }
        trailer := { s.alc.trailer with missed := 0 }
        stray := 0 } }

end Sys2Proof.Machine
end

