-- ==== Sys2Proof/Machine/Completion.lean ====
section
/-! DEFINITION. The frame cycle (02_the_frame_cycle.md): the frame start, and stage 10 of a computation: state updates, deposits,
notices, the LIMP report, the live page (R173, R174, R185) and the capture record (R179, R180, R189). -/

namespace Sys2Proof.Machine

/-! ### The frame start (R21, R22, R10, R23) -/

/-- The Frame Timer at a frame start: the frame number incremented, and the interval now begun timed with the adopted period (R21, R22). -/
def FrameTimer.tick (f : FrameTimer) : FrameTimer := { f with frame := f.frame + 1, interval := f.period }

/-- R_prev of the computation that begins at a frame start (R85): the stored R, but 0 in the first computation of a stay in ACTIVE,
as R88, R99 and R126 say. The two differ only where a stay begins and no computation has begun outside ACTIVE since the stay
before: by MODE_GO out of ACTIVE and back in; by the LIMP entry of step 4, then MODE_GO to STANDBY or DORMANT and to ACTIVE; by a
calibration accepted in ACTIVE and ended by ABANDON, or by MODE_GO DORMANT and then ACTIVE; each before the next frame start. There
R85's words would give the stored R, which no change of state alters. That R88, R99 and R126 go before them is the model's choice
(notes/assumptions/22.md). -/
def previousReduction (s : State) : Nat := if s.sc.op = .active ∧ s.sc.activeEntered = true then 0 else s.fcu.reduction

/-- What the FCU takes at a frame start (R23): `s` is the part as it stood before the event, whose interval just ended. -/
def takeComputation (s : State) : Computation where
  frame := s.ft.frame + 1
  dtMs := s.ft.interval
  stateAtStart := s.sc.op
  snapshot := s.lanes.snapshot
  mode := s.fcu.mode
  load := s.fcu.load
  leanPrev := s.fcu.leanFine
  biasRoll := s.fcu.biasRoll
  biasYaw := s.fcu.biasYaw
  rPrev := previousReduction s
  observer := s.fcu.observer
  causes := 0
  calFrame := s.sc.op == .calibrating

/-- A computation begins (R23); the mark of an entry to ACTIVE is used up (notes/assumptions/22.md). -/
def beginComputation (c : Computation) (s : State) : State :=
  { s with fcu := { s.fcu with inFlight := some c }, sc := { s.sc with activeEntered := false } }

/-- A frame start. Computations never overlap (R23), so it cannot come while one is in flight (notes/assumptions/2.md). -/
def startFrame (s : State) : State :=
  if s.fcu.inFlight.isNone then beginComputation (takeComputation s) (ageLanes { s with ft := s.ft.tick }) else s

/-! ### Stage 10, steps 1 to 3 -/

/-- The FCU after step 1 (R34, R29, R30), with the stored results of stages 4, 6 and 8 (R40, R85, R111). -/
def FrameUnit.step1 (f : FrameUnit) (r : Results) : FrameUnit :=
  { f with
    leanFine := r.lean.leanFine
    reduction := r.reduction
    observer := r.observer
    sticky := f.sticky ||| r.causes
    escCount := if r.escalates then satInc 255 f.escCount else f.escCount
    escLatch := f.escLatch || (r.escalates && decide (f.mode.latchCount ≤ satInc 255 f.escCount)) }

/-- The five deposited values of a completion (R34, R117). -/
structure DepositSet where
  torque : Nat
  brake : Nat
  share : Nat
  level : Nat
  source : Source
  deriving DecidableEq, Repr

/-- The no-limit values (R117). -/
def noLimit : DepositSet := ⟨1024, 12000, 0, 0, .none⟩

/-- The fallback values (R117). -/
def fallbackSet (m : ModeRecord) : DepositSet := ⟨m.fallbackTorque, m.fallbackBrake, m.fallbackFrontShare, 0, .fallback⟩

/-- What a completion deposits, by the state read in step 2 (R34). -/
def depositSet (op : OpState) (m : ModeRecord) (r : Results) : Option DepositSet :=
  match op with
  | .dormant => none
  | .calibrating => some noLimit
  | .standby => some noLimit
  | .active => some (if r.escalates then fallbackSet m else ⟨r.c, r.d, r.env.frontShare, r.level, .computed⟩)
  | .limp => some (fallbackSet m)

/-- The three messages of a completion taken by the ALC (R34 step 2, R140), in the order R34 names the channels
(notes/assumptions/9.md). -/
def depositAll (frame : Word) (d : DepositSet) (s : State) : State :=
  deposit .trailer ⟨d.source, frame, .trailer d.level⟩
    (deposit .brake ⟨d.source, frame, .brake d.brake d.share⟩ (deposit .engine ⟨d.source, frame, .torque d.torque⟩ s))

/-- Step 2 (R34): when the ALC has taken all three messages it consults the arbiter (R140, R142); in DORMANT none is handed. -/
def makeDeposits (c : Computation) (r : Results) (s : State) : State :=
  match depositSet s.sc.op c.mode r with
  | none => s
  | some d => consultArbiter (depositAll c.frame d s)

/-- The ESCALATION notice (R33). -/
def escalationNotice (c : Computation) (r : Results) (s : State) : State :=
  if r.escalates then
    offerNotice .escalation (r.causes &&& c.mode.escalationMask).toNat (u32 s.fcu.escCount) (u32 (bitOf s.fcu.escLatch)) s
  else s

/-- The GRADE notice on a change of the active grade (R103). -/
def gradeNotice (r : Results) (s : State) : State :=
  if r.activeGrade = s.fcu.prevActiveGrade then s
  else offerNotice .grade r.activeGrade (u32 s.fcu.prevActiveGrade) (u32 r.observer.observed) s

/-- The notice of one verdict's rise or fall, if there is one (R32). -/
def verdictNotice (old new : Byte) (k : Nat) (s : State) : State :=
  if new.getLsbD k = old.getLsbD k then s
  else offerNotice .verdict (if new.getLsbD k then k else k + 8) (u32 new.toNat) (u32 old.toNat) s

/-- The notices of all verdict edges, V0 to V7 (R32). -/
def verdictNotices (old new : Byte) (s : State) : State := (List.range 8).foldl (fun t k => verdictNotice old new k t) s

/-- Step 3: the FCU's notices in their order, then the previous verdicts and the previous active grade replaced (R34, R32, R103). -/
def unitNotices (c : Computation) (r : Results) (s : State) : State :=
  let s1 := verdictNotices s.fcu.prevVerdicts r.verdicts (gradeNotice r (escalationNotice c r s))
  { s1 with fcu := { s1.fcu with prevVerdicts := r.verdicts, prevActiveGrade := r.activeGrade } }

/-! ### Step 5: the live page (R173, R174, R185) -/

/-- Step 6 will write this completion's record: a capture runs that was not accepted during this computation (R169, R179). -/
def recordsNow (f : FrameUnit) : Bool :=
  match f.capture with
  | some k => !k.skipCurrent
  | none => false

/-- The capture item: running or not, and the records written, this completion's included (R174; notes/assumptions/10.md). -/
def captureItem (f : FrameUnit) : Nat × Nat :=
  match f.capture with
  | some k => (1, if k.skipCurrent then k.next else k.next + 1)
  | none => (0, 0)

/-- A lane's word of the live page (R185): state and age of the snapshot, flags and count at publication (R20). -/
def laneWordOf (v : LaneView) (x : Lane) : Word := pack8 (u8 v.state.code) (u8 v.age) x.flags.toByte (u8 x.errorCount)

/-- A channel's two words of the live page (R185). -/
def channelWords (x : Channel) : List Word :=
  [pack8 (u8 x.state.code) (u8 x.health.code) (u8 (bitOf x.toggle)) (u8 x.last.code),
    pack16 (u8 0 ++ u8 x.misses) (u16 x.missed)]

/-- The words of the live page after the update counter, in ascending order (R185); words without a field are 0 (R182). -/
def pageBody (c : Computation) (r : Results) (s : State) : List Word :=
  [c.frame,
    pack8 (u8 s.sc.op.code) (u8 (bitOf s.fcu.calValid)) (u8 s.fcu.escCount) (u8 (bitOf s.fcu.escLatch)),
    pack16 (u16 s.sc.recovery) (u16 s.sc.calCount),
    pack16 (toS16 r.newLean) (toS16 s.fcu.biasRoll),
    pack16 (toS16 s.fcu.biasYaw) (u16 (r.speeds.vRef.getD 0)),
    pack16 (u8 r.slipStatus.code ++ u8 r.speeds.source.code) (toS16 r.slip),
    pack16 (u16 r.reduction) (u16 r.c),
    pack16 (u16 r.d) (u8 0 ++ u8 r.env.frontShare),
    pack16 (u16 r.level) (u8 c.mode.modeGrade ++ u8 r.activeGrade),
    pack8 (u8 r.observer.observed) r.causes s.fcu.sticky r.verdicts,
    pack8 (u8 (captureItem s.fcu).1) (u8 (captureItem s.fcu).2) 0 0,
    laneWordOf c.snapshot.imu s.lanes.imu, laneWordOf c.snapshot.front s.lanes.front, laneWordOf c.snapshot.rear s.lanes.rear,
    laneWordOf c.snapshot.engine s.lanes.engine, laneWordOf c.snapshot.trailer s.lanes.trailer]
  ++ channelWords s.alc.engine ++ channelWords s.alc.brake ++ channelWords s.alc.trailer
  ++ [pack8 (u8 s.alc.stray) 0 0 0] ++ List.replicate 40 0

/-- A publication (R173): the counter odd, every other word in ascending order, the counter even, then LIVE_NEW. -/
def publish (c : Computation) (r : Results) (s : State) : State :=
  let odd := s.ram.writeWord pageWord (s.fcu.publications + 1)
  let body := odd.writeWords (pageWord + 1) (pageBody c r s)
  { s with
    ram := body.writeWord pageWord (s.fcu.publications + 2)
    fcu := { s.fcu with publications := s.fcu.publications + 2 }
    xp := s.xp.raise liveNewBit }

/-! ### Step 6: the capture record (R179, R180, R189) -/

/-- The lane states of a snapshot, two bits a lane, L0 lowest (R189). -/
def packedLaneStates (p : Snapshot) : Nat :=
  p.imu.state.code + 4 * p.front.state.code + 16 * p.rear.state.code + 64 * p.engine.state.code + 256 * p.trailer.state.code

/-- The sixteen words of a frame record (R189); `opAfter` is the state after step 4. Bits 31:27 of the word at 0x14, to which R189 gives
no field and R182, whose rule is for whole bytes, no value, are written 0: the model's choice (notes/assumptions/25.md). -/
def frameRecord (c : Computation) (r : Results) (opAfter : OpState) : List Word :=
  let p := c.snapshot
  let h (v : LaneView) (t : Nat) : Half := v.slot.getD t 0
  [pack16 (h p.imu 0) (h p.imu 1),
    pack16 (h p.imu 2) (h p.imu 3),
    pack16 (h p.imu 4) (h p.front 0),
    pack16 (h p.rear 0) (h p.engine 0),
    pack16 (toS16 r.rates.roll) (toS16 r.rates.yaw),
    joinFields [field 14 0 r.lean.tau, field 2 14 c.mode.modeGrade, field 2 16 r.observer.observed, field 3 18 c.stateAtStart.code,
      field 3 21 opAfter.code, field 3 24 c.dtMs],
    joinFields [fieldSigned 14 0 r.prevLean, fieldSigned 14 14 r.newLean, field 2 28 r.cls.code, field 2 30 r.activeGrade],
    pack16 (u16 r.speeds.kf) (u16 r.speeds.kr),
    joinFields [field 14 0 (r.speeds.front.getD 0), field 14 14 (r.speeds.rear.getD 0), field 2 28 r.speeds.source.code,
      field 1 30 (bitOf r.present), field 1 31 (h p.trailer 0).toNat],
    joinFields [fieldSigned 11 0 r.slip, field 13 11 r.level, field 8 24 r.observer.bucket],
    joinFields [field 9 0 r.env.slipTarget, field 11 9 r.env.torqueCeiling, field 11 20 r.c, field 1 31 (bitOf r.escalates)],
    joinFields [field 11 0 c.rPrev, field 11 11 r.reduction, field 10 22 (packedLaneStates p)],
    joinFields [field 14 0 r.env.brakeCeiling, field 14 14 r.d, field 2 28 r.slipStatus.code, field 2 30 r.lean.band.code],
    pack8 (u8 (256 - r.factors.tf)) (u8 (256 - r.factors.bf)) (u8 r.env.trailerShare) (u8 r.env.frontShare),
    pack16 (r.verdicts ++ r.causes) (u16 r.observer.quiet),
    c.frame]

/-- The running capture after this completion's record (R179 steps 2 and 3). -/
def Capture.advanced (k : Capture) (frame : Word) : Capture :=
  { k with first := if k.next = 0 then some frame else k.first, next := k.next + 1 }

/-- The payload of a CAPTURE's result: records written, frame number of the first, 0 if none (R165, R169, R170). -/
def capturePayload (k : Capture) : List Word := [u32 k.next, k.first.getD 0]

/-- Step 6 (R35, R179): the record written; at the Nth the capture ends and its request completes OK. A capture accepted during this
computation begins with the next (R169). -/
def recordCapture (c : Computation) (r : Results) (s : State) : State :=
  match s.fcu.capture with
  | none => s
  | some k =>
    if k.skipCurrent then { s with fcu := { s.fcu with capture := some { k with skipCurrent := false } } }
    else
      let k' := k.advanced c.frame
      let ram := s.ram.writeWords (captureWord k.next) (frameRecord c r s.sc.op)
      if k'.next < k.count then { s with ram := ram, fcu := { s.fcu with capture := some k' } }
      else
        completeLong .capture .ok k.count (capturePayload k') { s with ram := ram, fcu := { s.fcu with capture := none } }

/-! ### The completion (R34) -/

/-- Stage 10 up to the end of step 4. -/
def throughReport (c : Computation) (r : Results) (s : State) : State :=
  takeReport c r (unitNotices c r (makeDeposits c r { s with fcu := s.fcu.step1 r }))

/-- Stage 10 whole, its computation no longer in flight. -/
def completeComputation (c : Computation) (s : State) : State :=
  let r := compute c s.table
  let s1 := recordCapture c r (publish c r (throughReport c r s))
  { s1 with fcu := { s1.fcu with inFlight := none } }

/-- The computation in flight, if there is one, completes. -/
def completeInFlight (s : State) : State :=
  match s.fcu.inFlight with
  | some c => completeComputation c s
  | none => s

/-! ### Captures by request (R169, R170) -/

/-- A CAPTURE request (R169). -/
def requestCapture (r : Request) (s : State) : State :=
  if r.param1.toNat < 1 ∨ 32 < r.param1.toNat then finish r .refusedRange 1 [] s
  else if (longEntryOf s.rqe.long .capture).isSome then finish r .refusedBusy 0 [] s
  else
    stayTaken r .capture
      { s with fcu := { s.fcu with capture := some ⟨r.slot, r.param1.toNat, 0, none, s.fcu.inFlight.isSome⟩ } }

/-- ABANDON with target CAPTURE (R170). -/
def abandonRunningCapture (r : Request) (s : State) : State :=
  match s.fcu.capture with
  | none => finish r .refusedState 0 [] s
  | some k =>
    finish r .ok 0 []
      (completeLong .capture .partialCapture k.next (capturePayload k) { s with fcu := { s.fcu with capture := none } })

end Sys2Proof.Machine
end

