-- ==== Sys2Proof/Machine/Records.lean ====
section
/-! DEFINITION. ADOPT and CLEAR (R167, R168): the standing records read and clamped (R184, R37, R53, R93, R104, R105, R132, R175), and the
application of gap requests (R25). -/

namespace Sys2Proof.Machine

/-! ### The mode record -/

/-- The mode record as the host wrote it (R184), each field at its stated width. -/
structure RawMode where
  framePeriod : Nat
  escalationMask : Byte
  latchCount : Nat
  leanWarn : Nat
  alpha : Nat
  vKinMin : Nat
  vAccMax : Nat
  slipVMin : Nat
  ki : Nat
  rel : Nat
  modeGrade : Nat
  episodeWeight : Nat
  restoreFrames : Nat
  recoveryFrames : Nat
  fallbackTorque : Nat
  fallbackBrake : Nat
  fallbackFrontShare : Nat
  noticeMask : Nat
  deriving DecidableEq, Repr

/-- The mode record of the standing records, at the offsets of R184. -/
def rawMode (m : Memory) : RawMode where
  framePeriod := m.u16At 0x100
  escalationMask := m.readByte 0x102
  latchCount := m.u8At 0x103
  leanWarn := m.u16At 0x104
  alpha := m.u16At 0x106
  vKinMin := m.u16At 0x108
  vAccMax := m.u16At 0x10A
  slipVMin := m.u16At 0x10C
  ki := m.u16At 0x10E
  rel := m.u16At 0x110
  modeGrade := m.u8At 0x112
  episodeWeight := m.u16At 0x114
  restoreFrames := m.u16At 0x116
  recoveryFrames := m.u16At 0x118
  fallbackTorque := m.u16At 0x11A
  fallbackBrake := m.u16At 0x11C
  fallbackFrontShare := m.u16At 0x11E
  noticeMask := m.u16At 0x120

/-- frame_period clamped: 0 becomes 1; 3 and every value above 4 become 4 (R37). -/
def clampPeriod (v : Nat) : Nat := if v = 0 then 1 else if v = 3 ∨ 4 < v then 4 else v

/-- The adopted values of a raw mode record (R37, R53, R93, R104, R132, R175). v_acc_max is clamped against the clamped v_kin_min (R53). -/
def RawMode.adopted (w : RawMode) : ModeRecord where
  escalationMask := w.escalationMask
  latchCount := clampNat 1 15 w.latchCount
  leanWarn := clampNat 1000 6500 w.leanWarn
  alpha := clampNat 0 4095 w.alpha
  vKinMin := clampNat 100 3000 w.vKinMin
  vAccMax := clampNat 0 (clampNat 100 3000 w.vKinMin) w.vAccMax
  slipVMin := clampNat 100 3000 w.slipVMin
  ki := clampNat 1 4095 w.ki
  rel := clampNat 1 255 w.rel
  modeGrade := clampNat 0 3 w.modeGrade
  episodeWeight := clampNat 1 255 w.episodeWeight
  restoreFrames := clampNat 100 65535 w.restoreFrames
  recoveryFrames := clampNat 1 65535 w.recoveryFrames
  fallbackTorque := clampNat 0 1024 w.fallbackTorque
  fallbackBrake := clampNat 500 12000 w.fallbackBrake
  fallbackFrontShare := clampNat 64 230 w.fallbackFrontShare
  noticeMask := u8 w.noticeMask

/-- How many fields of the mode record a clamp changes; clearing notice mask bits beyond bit 7 counts (R175). -/
def RawMode.clamps (w : RawMode) : Nat :=
  let a := w.adopted
  changed w.framePeriod (clampPeriod w.framePeriod) + changed w.latchCount a.latchCount + changed w.leanWarn a.leanWarn
    + changed w.alpha a.alpha + changed w.vKinMin a.vKinMin + changed w.vAccMax a.vAccMax + changed w.slipVMin a.slipVMin
    + changed w.ki a.ki + changed w.rel a.rel + changed w.modeGrade a.modeGrade + changed w.episodeWeight a.episodeWeight
    + changed w.restoreFrames a.restoreFrames + changed w.recoveryFrames a.recoveryFrames
    + changed w.fallbackTorque a.fallbackTorque + changed w.fallbackBrake a.fallbackBrake
    + changed w.fallbackFrontShare a.fallbackFrontShare + changed w.noticeMask a.noticeMask.toNat

/-- The mode record adopted: the FCU's fields, and the period handed to the Frame Timer, which keeps the interval it is timing (R22). -/
def adoptModeRecord (s : State) : State :=
  { s with
    fcu := { s.fcu with mode := (rawMode s.ram).adopted }
    ft := { s.ft with period := clampPeriod (rawMode s.ram).framePeriod } }

/-! ### The load record -/

/-- The factors of a class code as written: tf at 0x0144 + 4c, bf at 0x0146 + 4c (R184). -/
def rawFactors (m : Memory) (c : Nat) : ClassFactors := ⟨m.u16At (0x144 + 4 * c), m.u16At (0x146 + 4 * c)⟩

/-- Factors clamped to 128..256 (R105). -/
def ClassFactors.clamped (f : ClassFactors) : ClassFactors := ⟨clampNat 128 256 f.tf, clampNat 128 256 f.bf⟩

/-- How many of a class's two factors the clamp changes. -/
def ClassFactors.clamps (f : ClassFactors) : Nat := changed f.tf f.clamped.tf + changed f.bf f.clamped.bf

/-- The load record of the standing records, clamped (R105, R184). -/
def loadRecordOf (m : Memory) : LoadRecord where
  cls := loadClassOfCode (clampNat 0 3 (m.u8At 0x140))
  solo := (rawFactors m 0).clamped
  pillion := (rawFactors m 1).clamped
  pillionLuggage := (rawFactors m 2).clamped
  trailer := (rawFactors m 3).clamped

/-- How many fields of the load record the clamp changes (R105, R167). -/
def loadRecordClamps (m : Memory) : Nat :=
  changed (m.u8At 0x140) (clampNat 0 3 (m.u8At 0x140)) + (rawFactors m 0).clamps + (rawFactors m 1).clamps
    + (rawFactors m 2).clamps + (rawFactors m 3).clamps

/-- The load record adopted (R105). -/
def adoptLoadRecord (s : State) : State := { s with fcu := { s.fcu with load := loadRecordOf s.ram } }

/-! ### ADOPT and CLEAR as wholes -/

/-- An action taken when a mask names its bit. -/
def ifNamed (mask : Word) (k : Nat) (act : State → State) (s : State) : State := if names mask k then act s else s

/-- The clamped-field counts of the four records, 0 for a record not named, saturating at 255 (R167). -/
def clampCounts (mask : Word) (s : State) : List Nat :=
  [if names mask 0 then min 255 (rawMode s.ram).clamps else 0, if names mask 1 then min 255 (loadRecordClamps s.ram) else 0,
    if names mask 2 then min 255 (laneClamps s) else 0, if names mask 3 then min 255 (readLinkRecord s.ram).2 else 0]

/-- An ADOPT's result detail: bit k for each record with a clamped field (R167). -/
def clampDetail (counts : List Nat) : Nat :=
  bitOf (counts.getD 0 0 != 0) + 2 * bitOf (counts.getD 1 0 != 0) + 4 * bitOf (counts.getD 2 0 != 0)
    + 8 * bitOf (counts.getD 3 0 != 0)

/-- Every named record adopted at one moment (R167), in the order of the mask's bits (notes/assumptions/12.md). -/
def adoptNamed (mask : Word) (s : State) : State :=
  ifNamed mask 3 adoptLinkRecord (ifNamed mask 2 adoptLanes (ifNamed mask 1 adoptLoadRecord (ifNamed mask 0 adoptModeRecord s)))

/-- An ADOPT applied whole and completed: OK, or CLAMPED with the records that had clamped fields (R167). -/
def applyAdopt (r : Request) (s : State) : State :=
  let counts := clampCounts r.param1 s
  let detail := clampDetail counts
  finish r (if detail = 0 then .ok else .clamped) detail
    [pack8 (u8 (counts.getD 0 0)) (u8 (counts.getD 1 0)) (u8 (counts.getD 2 0)) (u8 (counts.getD 3 0))] (adoptNamed r.param1 s)

/-- An ADOPT that names the mode or the load record is a gap request (R25, R167). -/
def adoptIsGap (r : Request) : Bool := names r.param1 0 || names r.param1 1

/-- An ADOPT that passed its mask check: a gap request or applied at execution (R167). -/
def executeAdopt (r : Request) (s : State) : State := if adoptIsGap r then gapRequest applyAdopt r s else applyAdopt r s

/-- The sticky flags cleared (R29). -/
def clearStickyFlags (s : State) : State := { s with fcu := { s.fcu with sticky := 0 } }

/-- The dropped count and READ_COUNT_BAD cleared, and the header written (R168, R177). -/
def clearHeader (s : State) : State :=
  { s with
    nw := { s.nw with dropped := 0, readCountBad := false }
    ram := s.ram.writeWord headerWord ({ s.nw with dropped := 0, readCountBad := false } : NoticeWriter).header }

/-- Every named option cleared at one moment (R168). -/
def clearNamed (mask : Word) (s : State) : State :=
  ifNamed mask 3 clearHeader (ifNamed mask 2 clearCounts (ifNamed mask 1 clearLanes (ifNamed mask 0 clearStickyFlags s)))

/-- A CLEAR applied whole and completed OK (R168). -/
def applyClear (r : Request) (s : State) : State := finish r .ok 0 [] (clearNamed r.param1 s)

/-- A CLEAR that passed its mask check: a gap request if it names the sticky option, else applied at execution (R168, R25). -/
def executeClear (r : Request) (s : State) : State := if names r.param1 0 then gapRequest applyClear r s else applyClear r s

/-- A TABLE_LOAD: its parameters judged at once (R67), then a gap request (R68). -/
def executeLoad (r : Request) (s : State) : State :=
  match loadCheck (loadRange r) with
  | some detail => finish r .refusedRange detail [] s
  | none => gapRequest applyLoad r s

/-- The application of a gap request that waited, by its kind (R25). -/
def applyWaiting (r : Request) (s : State) : State :=
  if r.kind = kindAdopt then applyAdopt r s
  else if r.kind = kindClear then applyClear r s
  else if r.kind = kindTableLoad then applyLoad r s
  else if r.kind = kindTableDump then beginDump r s
  else s

/-- The waiting gap request, if one waits and no computation is in flight (R25). -/
def waitingRequest (s : State) : Option Request :=
  match s.rqe.execution, s.fcu.inFlight with
  | some ⟨r, .waitingGap⟩, none => some r
  | _, _ => none

/-- The dump that is writing, with the words written so far (R75). -/
def dumpingRequest (s : State) : Option (Request × Nat) :=
  match s.rqe.execution with
  | some ⟨r, .dumping written⟩ => some (r, written)
  | _ => none

end Sys2Proof.Machine
end

