-- ==== Sys2Proof/Machine/FrameCommands.lean ====
section
/-! DEFINITION. The commands of the frame cycle: the frame start, the completion, and what the gap applies (R21, R34, R25). -/

namespace Sys2Proof.Machine

/-- FRAME_START (R21, R10, R23). -/
def execFrameStart (s : State) : Host.Outcome State Fault Refusal := .next (startFrame s)

/-- COMPUTATION_COMPLETE (R34). -/
def execComputationComplete (s : State) : Host.Outcome State Fault Refusal := .next (completeInFlight s)

/-- GAP_REQUEST_APPLY (R25). -/
def execGapRequestApply (s : State) : Host.Outcome State Fault Refusal :=
  .next (match waitingRequest s with
    | some r => applyWaiting r s
    | none => s)

/-- TABLE_DUMP_DONE (R75): the rest of the image written, last word included; the dump completes OK and the Request Engine is
released. -/
def execTableDumpDone (s : State) : Host.Outcome State Fault Refusal :=
  .next (match dumpingRequest s with
    | some (r, written) => finish r .ok 0 [] { s with ram := dumpSpan s.ram s.table written imageWords }
    | none => s)

end Sys2Proof.Machine
end

