-- ==== Sys2Proof/Machine/LaneCommands.lean ====
section
/-! DEFINITION. The commands of the sensor lanes' receivers (R2, R3). A receiver that is not in the state an event needs does not see
it, and nothing changes (notes/assumptions/2.md); the receiver of a disabled lane is off (R16). -/

namespace Sys2Proof.Machine

/-- The consecutive high samples that end IDLE_WAIT: 23 bit times (R2). -/
def laneIdleSamples : Nat := 368

/-- LANE_IDLE_DETECTED (R2). -/
def execLaneIdleDetected (l : LaneId) (run : Nat) (s : State) : Host.Outcome State Fault Refusal :=
  .next (if (s.lanes.get l).rx = .idleWait ∧ laneIdleSamples ≤ run then setLaneRx l .hunt s else s)

/-- LANE_START_EDGE (R2): a low sample that follows a high sample, in HUNT. -/
def execLaneStartEdge (l : LaneId) (before now : Bool) (s : State) : Host.Outcome State Fault Refusal :=
  .next (if (s.lanes.get l).rx = .hunt ∧ before = true ∧ now = false then setLaneRx l .receive s else s)

/-- LANE_FALSE_START (R2): in RECEIVE the start bit is decided high; no flag or count is changed. -/
def execLaneFalseStart (l : LaneId) (s7 s8 s9 : Bool) (s : State) : Host.Outcome State Fault Refusal :=
  .next (if (s.lanes.get l).rx = .receive ∧ majorityBit s7 s8 s9 = true then setLaneRx l .hunt s else s)

/-- LANE_WORD_ARRIVAL (R3): each bit decided by the majority of its centre samples (R2). -/
def execLaneWordArrival (l : LaneId) (s7 s8 s9 : BitVec 23) (s : State) : Host.Outcome State Fault Refusal :=
  .next
    (if (s.lanes.get l).rx = .receive then updateLane l ((s.lanes.get l).word l (laneWordFields (majority s7 s8 s9))) s else s)

end Sys2Proof.Machine
end

