-- ==== Sys2Proof/Machine/LinkCommands.lean ====
section
/-! DEFINITION. The commands of the actuator link: the grant, the end of sending, the receiver's events and the reply timeout (R136,
R142 to R146). An event the link's state does not admit changes nothing (notes/assumptions/2.md). -/

namespace Sys2Proof.Machine

/-- LINK_GRANT (R142): the arbiter's own row, by which a link that became FREE is granted (notes/assumptions/24.md). -/
def execLinkGrant (s : State) : Host.Outcome State Fault Refusal := .next (consultArbiter s)

/-- The end of the eighth character (R143): the line released, the receiver on in HUNT (R136), the reply timeout of 8 µs
times the recorded multiplier started; RESERVED for an abandoned transaction, AWAITING otherwise. -/
def LinkController.sent (a : LinkController) (t : Transaction) : LinkController :=
  { a with
    link := if t.abandoned then .reserved else .awaiting
    outstanding := some { t with window := some (8 * t.multiplier) }
    rx := .hunt
    address := none
    driven := [] }

/-- MESSAGE_SENT (R143). -/
def execMessageSent (s : State) : Host.Outcome State Fault Refusal :=
  .next (match s.alc.link, s.alc.outstanding with
    | .sending, some t => { s with alc := s.alc.sent t }
    | _, _ => s)

/-- The consecutive high samples that end the link's IDLE_WAIT: 10 bit times (R136). -/
def linkIdleSamples : Nat := 160

/-- LINK_IDLE_DETECTED (R136). -/
def execLinkIdleDetected (run : Nat) (s : State) : Host.Outcome State Fault Refusal :=
  .next (if s.alc.rx = .idleWait ∧ linkIdleSamples ≤ run then setLinkRx .hunt s.alc.address s else s)

/-- LINK_START_EDGE (R136). -/
def execLinkStartEdge (before now : Bool) (s : State) : Host.Outcome State Fault Refusal :=
  .next (if s.alc.rx = .hunt ∧ before = true ∧ now = false then setLinkRx .receive s.alc.address s else s)

/-- LINK_FALSE_START (R136): the edge is ignored. -/
def execLinkFalseStart (s7 s8 s9 : Bool) (s : State) : Host.Outcome State Fault Refusal :=
  .next (if s.alc.rx = .receive ∧ majorityBit s7 s8 s9 = true then setLinkRx .hunt s.alc.address s else s)

/-- The bit times of idle line after which a held address byte is discarded (R144). -/
def addressIdleBits : Nat := 20

/-- ACK_ADDRESS_DISCARD (R144): no start edge has been seen, so the receiver is in HUNT; nothing is counted. -/
def execAckAddressDiscard (idleBits : Nat) (s : State) : Host.Outcome State Fault Refusal :=
  .next (if s.alc.rx = .hunt ∧ addressIdleBits ≤ idleBits then setLinkRx .hunt none s else s)

/-- A decided character that is no check byte (R144): a bad one discards itself and any address byte and sends the receiver to
IDLE_WAIT; a good one with no address byte held is held as the address byte. A good one with an address byte held is a check
byte, whose arrival is ACK_ARRIVAL. A start bit decided high is a false start (R136). -/
def takeCharacter (ch : BitVec 10) (s : State) : State :=
  if charStart ch then setLinkRx .hunt s.alc.address s
  else if charStop ch then (if s.alc.address.isNone then setLinkRx .hunt (some (charData ch)) s else s)
  else setLinkRx .idleWait none s

/-- LINK_CHARACTER_ARRIVAL (R144), each bit decided by the majority of its centre samples (R136). -/
def execLinkCharacterArrival (s7 s8 s9 : BitVec 10) (s : State) : Host.Outcome State Fault Refusal :=
  .next (if s.alc.rx = .receive then takeCharacter (majority s7 s8 s9) s else s)

/-- The two bytes of an acknowledgement whose check character has just been decided good (R144). -/
def completedAck (ch : BitVec 10) (a : LinkController) : Option (Byte × Byte) :=
  match a.rx, a.address with
  | .receive, some address => if charStart ch = false ∧ charStop ch = true then some (address, charData ch) else none
  | _, _ => none

/-- ACK_ARRIVAL (R144): the receiver back in HUNT with no address byte held, and the acknowledgement classified. -/
def execAckArrival (s7 s8 s9 : BitVec 10) (s : State) : Host.Outcome State Fault Refusal :=
  .next (match completedAck (majority s7 s8 s9) s.alc with
    | some (address, check) => classifyAck address check (setLinkRx .hunt none s)
    | none => s)

/-- REPLY_TIMEOUT (R146, R150): an awaited transaction ends as a TIMEOUT miss, a reservation ends; otherwise the expiry finds no
transaction and has no effect (R144). -/
def execReplyTimeout (s : State) : Host.Outcome State Fault Refusal :=
  .next (match s.alc.link, s.alc.outstanding with
    | .awaiting, some t => endMiss t.channel .timeout s
    | .reserved, _ => freeLink s
    | _, _ => s)

end Sys2Proof.Machine
end

