-- ==== Sys2Proof/Machine/Resets.lean ====
section
/-! DEFINITION. The two resets (R171, R172) and what each chapter says of them. -/

namespace Sys2Proof.Machine

/-- Power-on reset: every block at its power-on values, RAM included (R171). The queue of commands is not the part's, and the
count of free values used is the model's; both stay. -/
def powerOn (s : State) : State := { State.reset with freeIndex := s.freeIndex, pending := s.pending }

/-- The words of a frame record that step 6 has written when a soft reset cuts it off: all but the last word at most, and how
many is a free value (R179; notes/assumptions/6.md). -/
def cutCapture (s : State) : State :=
  match s.fcu.inFlight, s.fcu.capture with
  | some c, some k =>
    if k.skipCurrent then s
    else
      let r := compute c s.table
      let record := frameRecord c r (throughReport c r s).sc.op
      { s with
        ram := s.ram.writeWords (captureWord k.next) (record.take (min 15 (Config.captureCut s.freeIndex)))
        freeIndex := s.freeIndex + 1 }
  | _, _ => s

/-- The kind and tag with which a TAKEN slot was taken, by the Request Engine's own copies (R165, R164); a slot it holds
no copy of keeps what stands in it (notes/assumptions/13.md). -/
def takenAs (m : Memory) (e : RequestEngine) (slot : Nat) : Byte × Half :=
  match e.execution with
  | some x => if x.request.slot = slot then (x.request.kind, x.request.tag) else fromLists
  | none => fromLists
where
  /-- From the long-running list, else from the slot. -/
  fromLists : Byte × Half :=
    match e.long.reverse.find? fun x => x.slot == slot with
    | some x => (x.kind, x.tag)
    | none => ((readRequest m slot).kind, (readRequest m slot).tag)

/-- One slot at a soft reset: a TAKEN one is marked DONE with RESET, detail 0 and its payload left (R172). Whether a slot is TAKEN is
judged by its mark in the Exchange RAM alone ("every slot whose mark is TAKEN"). So the slot of a request in execution or on the
long-running list whose mark the host has overwritten is left as it stands, where R164, and R172's words that its rule covers
every request on the long-running list, would make it DONE with RESET. That is the model's choice (notes/assumptions/23.md). -/
def resetSlot (e : RequestEngine) (m : Memory) (slot : Nat) : Memory :=
  if slotMark m slot = markTaken then
    completedSlot m slot (takenAs m e slot).1 (takenAs m e slot).2 .reset 0 []
  else m

/-- The Exchange RAM at a soft reset (R172): identity block with cause SOFT, live page and notice header zero, TAKEN slots DONE with RESET. -/
def softResetMemory (m : Memory) (e : RequestEngine) : Memory :=
  let m1 := m.writeWords 0 (identityBlock 2)
  let m2 := m1.writeWords pageWord (List.replicate pageWords 0)
  let m3 := m2.writeWords headerWord (List.replicate headerWords 0)
  (List.range 16).foldl (resetSlot e) m3

/-- A soft reset (R172): a dump that is writing and a record in writing stop where they are (R78, R179), then every block takes its
power-on value. -/
def softReset (s : State) : State :=
  let s1 := cutCapture (advanceDump s)
  { powerOn s1 with ram := softResetMemory s1.ram s1.rqe }

end Sys2Proof.Machine
end

