-- ==== Sys2Proof/Machine/PortCommands.lean ====
section
/-! DEFINITION. The commands of the Exchange Port: the resets, the registers and the Exchange RAM (R155 to R158, R161, R171, R172),
and what host reads and SPI read transfers return (R155, R156, R181). -/

namespace Sys2Proof.Machine

/-- POWER_ON_RESET (R171). -/
def execPowerOnReset (s : State) : Host.Outcome State Fault Refusal := .next (powerOn s)

/-- CONTROL's reset bit (R181). -/
def resetBit (value : Word) : Bool := value.getLsbD 0

/-- SOFT_RESET (R172): a write to CONTROL with its reset bit set; with it clear the write is ignored (R156). -/
def execSoftReset (value : Word) (s : State) : Host.Outcome State Fault Refusal :=
  .next (if resetBit value then softReset s else s)

/-- An attention arrival (R161): a scan begins at the cursor, or the rescan-pending flag is set. -/
def attention (s : State) : State :=
  match s.rqe.scan with
  | some _ => { s with rqe := { s.rqe with rescan := true } }
  | none => continueScan { s with rqe := { s.rqe with scan := some ⟨s.rqe.cursor, 0⟩ } }

/-- ATTENTION_ARRIVAL (R161): any value written is one arrival (R156). -/
def execAttentionArrival (_value : Word) (s : State) : Host.Outcome State Fault Refusal := .next (attention s)

/-- The seven low bits of a register write (R181). -/
def summaryBits (value : Word) : BitVec 7 := value.extractLsb' 0 7

/-- SUMMARY_WRITE (R157): each bit written as one is cleared; ALERT follows (R158). -/
def execSummaryWrite (value : Word) (s : State) : Host.Outcome State Fault Refusal :=
  .next { s with xp := portWith (s.xp.summary &&& ~~~(summaryBits value)) s.xp.enable }

/-- SUMMARY_ENABLE_WRITE (R158): the enable bits replaced, bits that name no SUMMARY bit ignored (R156); ALERT follows. -/
def execSummaryEnableWrite (value : Word) (s : State) : Host.Outcome State Fault Refusal :=
  .next { s with xp := portWith s.xp.summary (summaryBits value) }

/-- REGISTER_WRITE_IGNORED (R155, R156): a write to IDENT, to an unassigned address, or to CONTROL with the reset bit clear. -/
def execRegisterWriteIgnored (_addr : BitVec 12) (_value : Word) (s : State) : Host.Outcome State Fault Refusal := .next s

/-- HOST_RAM_WRITE (R155): one word stored, a write beyond 8 KiB ignored. A dump that is writing has come to some word when the
write is served (R75). -/
def execHostRamWrite (addr : BitVec 12) (value : Word) (s : State) : Host.Outcome State Fault Refusal :=
  let s1 := advanceDump s
  .next { s1 with ram := s1.ram.writeWord addr.toNat value }

/-! ### Host reads (R155, R156, R181)

A read is no row of the opcode table and no command. It is a function of the state it meets, to the value read and the state after
it (notes/assumptions/21.md): no read changes the part, but a dump that is writing has come to some word when the read is served
(R75), and it does not go back. -/

/-- A host read of the Exchange RAM at a word address; beyond 8 KiB it reads 0 (R155). While a dump is writing, the read finds the
words the dump has written by then, a free number of them, and the others as they were (R75; notes/assumptions/5.md). -/
def hostReadRam (addr : BitVec 12) (s : State) : Word × State := ((advanceDump s).ram.readWord addr.toNat, advanceDump s)

/-- A host read of a register (R156): 0 IDENT, 1 ATTENTION, 2 SUMMARY, 3 SUMMARY_ENABLE, 4 CONTROL (R181); others read 0 (R155). That SUMMARY
reads 0 in the bits that name no SUMMARY bit, as R156 says of SUMMARY_ENABLE, is the model's choice (notes/assumptions/25.md). -/
def hostReadRegister (addr : BitVec 12) (s : State) : Word :=
  match addr.toNat with
  | 0 => identWord
  | 2 => s.xp.summary.setWidth 32
  | 3 => s.xp.enable.setWidth 32
  | _ => 0

/-- One word read access of an SPI transfer: of a register or of the Exchange RAM (R181). -/
def wordRead (fromRegister : Bool) (addr : BitVec 12) (s : State) : Word × State :=
  if fromRegister then (hostReadRegister addr s, s) else hostReadRam addr s

/-- The word read accesses of `n` words one after another: the word address advances by one after each word and wraps from 4095 to
0 (R181). Part accesses may fall between two words (R155): they come between two such stretches. -/
def wordReads (fromRegister : Bool) : Nat → BitVec 12 → State → List Word × State
  | 0, _, s => ([], s)
  | n + 1, addr, s =>
    let first := wordRead fromRegister addr s
    let rest := wordReads fromRegister n (addr + 1) first.2
    (first.1 :: rest.1, rest.2)

/-- A word's four bytes in the order they travel, lowest-addressed first (R181). -/
def wordBytes (w : Word) : List Byte := [byteOf w 0, byteOf w 1, byteOf w 2, byteOf w 3]

/-- An SPI read transfer in which the host clocks `n` words (R181): bit 15 of the header clear, bit 14 register space, bits 11:0 the
word address, bits 13:12 not examined. The part drives eight clocks of zero and then the words. A header with bit 15 set begins
a write, whose commands `spiTransfer` gives. -/
def spiReadTransfer (header : Half) (n : Nat) (s : State) : List Byte × State :=
  if header.getLsbD 15 then ([], s)
  else
    let words := wordReads (header.getLsbD 14) n (header.extractLsb' 0 12) s
    (0 :: words.1.flatMap wordBytes, words.2)

end Sys2Proof.Machine
end

