-- ==== Sys2Proof/Machine/RequestCommands.lean ====
section
/-! DEFINITION. The commands that execute a taken request (R163): one for each row of the opcode table, each over the request the
take put into execution (R162). -/

namespace Sys2Proof.Machine

/-- REFUSED_KIND (R163): the received kind code is the detail. -/
def execRefusedKind (s : State) : Host.Outcome State Fault Refusal :=
  .next (withTaken (fun r => unknownKind r.kind) (fun r t => finish r .refusedKind r.kind.toNat [] t) s)

/-- REFUSED_RANGE (R167, R168, R118, R148, R170): the number of the failed check is the detail. -/
def execRefusedRange (s : State) : Host.Outcome State Fault Refusal :=
  .next
    (withTaken (fun r => (rangeCheck r).isSome) (fun r t => finish r .refusedRange ((rangeCheck r).getD 0) [] t) s)

/-- An ADOPT whose mask passes its check and names record `k`. -/
def adoptNaming (k : Nat) (r : Request) : Bool := r.kind == kindAdopt && (maskCheck r.param1).isNone && names r.param1 k

/-- ADOPT_MODE (R37, R53, R93, R104, R132, R175). -/
def execAdoptMode (s : State) : Host.Outcome State Fault Refusal := .next (withTaken (adoptNaming 0) executeAdopt s)

/-- ADOPT_LOAD (R105). -/
def execAdoptLoad (s : State) : Host.Outcome State Fault Refusal := .next (withTaken (adoptNaming 1) executeAdopt s)

/-- ADOPT_LANE (R14 to R16). -/
def execAdoptLane (s : State) : Host.Outcome State Fault Refusal := .next (withTaken (adoptNaming 2) executeAdopt s)

/-- ADOPT_LINK (R151). -/
def execAdoptLink (s : State) : Host.Outcome State Fault Refusal := .next (withTaken (adoptNaming 3) executeAdopt s)

/-- A CLEAR whose mask passes its check and names option `k`. -/
def clearNaming (k : Nat) (r : Request) : Bool := r.kind == kindClear && (maskCheck r.param1).isNone && names r.param1 k

/-- CLEAR_STICKY (R29). -/
def execClearSticky (s : State) : Host.Outcome State Fault Refusal := .next (withTaken (clearNaming 0) executeClear s)

/-- CLEAR_LANE (R17). -/
def execClearLane (s : State) : Host.Outcome State Fault Refusal := .next (withTaken (clearNaming 1) executeClear s)

/-- CLEAR_CHANNEL_COUNTS (R152). -/
def execClearChannelCounts (s : State) : Host.Outcome State Fault Refusal := .next (withTaken (clearNaming 2) executeClear s)

/-- CLEAR_NOTICE_HEADER (R168, R177). -/
def execClearNoticeHeader (s : State) : Host.Outcome State Fault Refusal := .next (withTaken (clearNaming 3) executeClear s)

/-- TABLE_LOAD (R67, R68). -/
def execTableLoad (s : State) : Host.Outcome State Fault Refusal :=
  .next (withTaken (fun r => r.kind == kindTableLoad) executeLoad s)

/-- TABLE_DUMP (R75): a gap request that is never refused. -/
def execTableDump (s : State) : Host.Outcome State Fault Refusal :=
  .next (withTaken (fun r => r.kind == kindTableDump) (gapRequest beginDump) s)

/-- A MODE_GO with a target (R118). -/
def modeGoTo (target : Word) (r : Request) : Bool := r.kind == kindModeGo && r.param1 == target

/-- MODE_GO_DORMANT (R118 to R122). -/
def execModeGoDormant (s : State) : Host.Outcome State Fault Refusal :=
  .next (withTaken (modeGoTo 0) (fun r t => finish r .ok 0 [] (goDormant t)) s)

/-- MODE_GO_STANDBY (R118 to R122). -/
def execModeGoStandby (s : State) : Host.Outcome State Fault Refusal := .next (withTaken (modeGoTo 1) goStandby s)

/-- MODE_GO_ACTIVE (R118 to R122). -/
def execModeGoActive (s : State) : Host.Outcome State Fault Refusal := .next (withTaken (modeGoTo 2) goActive s)

/-- MODE_GO_CALIBRATE (R118 to R123). -/
def execModeGoCalibrate (s : State) : Host.Outcome State Fault Refusal := .next (withTaken (modeGoTo 3) goCalibrate s)

/-- An ABANDON with a target (R170). -/
def abandonOf (target : Word) (r : Request) : Bool := r.kind == kindAbandon && r.param1 == target

/-- ABANDON_TRANSITION (R127). -/
def execAbandonTransition (s : State) : Host.Outcome State Fault Refusal := .next (withTaken (abandonOf 0) abandonCalibration s)

/-- ABANDON_CAPTURE (R170). -/
def execAbandonCapture (s : State) : Host.Outcome State Fault Refusal := .next (withTaken (abandonOf 1) abandonRunningCapture s)

/-- CAPTURE (R169). -/
def execCapture (s : State) : Host.Outcome State Fault Refusal :=
  .next (withTaken (fun r => r.kind == kindCapture) requestCapture s)

/-- A CHANNEL request whose parameters pass their checks, with an action (R148): 0 STOP, 1 RESUME, 2 RESTART. -/
def channelAction (action : Word) (r : Request) : Bool :=
  r.kind == kindChannel && (channelCheck r).isNone && r.param2 == action

/-- The channel of a CHANNEL request that passed its checks (R148). -/
def channelOf (r : Request) : ChannelId := (channelOfCode r.param1.toNat).getD .engine

/-- A STOP by the channel state (R148). -/
def requestStop (r : Request) (s : State) : State :=
  match (s.alc.get (channelOf r)).state with
  | .idle => finish r .ok 0 [] (stopNow (channelOf r) s)
  | .pending => finish r .ok 0 [] (stopNow (channelOf r) s)
  | .outstanding => stayTaken r (.stop (channelOf r)) (stopLater (channelOf r) s)
  | .stopping => finish r .refusedBusy 0 [] s
  | .stopped => finish r .ok 0 [] s

/-- CHANNEL_STOP (R148). -/
def execChannelStop (s : State) : Host.Outcome State Fault Refusal := .next (withTaken (channelAction 0) requestStop s)

/-- A RESUME by the channel state (R149). -/
def requestResume (r : Request) (s : State) : State :=
  match (s.alc.get (channelOf r)).state with
  | .stopped => finish r .ok 0 [] (setChannel (channelOf r) { s.alc.get (channelOf r) with state := .idle } s)
  | _ => finish r .refusedState 0 [] s

/-- CHANNEL_RESUME (R149). -/
def execChannelResume (s : State) : Host.Outcome State Fault Refusal := .next (withTaken (channelAction 1) requestResume s)

/-- CHANNEL_RESTART (R150). -/
def execChannelRestart (s : State) : Host.Outcome State Fault Refusal :=
  .next (withTaken (channelAction 2) (fun r t => finish r .ok 0 [] (restartChannel (channelOf r) t)) s)

end Sys2Proof.Machine
end

