-- ==== Sys2Proof/Machine/Dispatch.lean ====
section
/-! DEFINITION. The one dispatch: each command's meaning, one arm per constructor of `Instr`, in the opcode table's order. -/

namespace Sys2Proof.Machine

/-- What a command does to everything but the queue. -/
def exec (i : Instr) (s : State) : Host.Outcome State Fault Refusal :=
  match i with
  | .powerOnReset => Sys2Proof.Machine.execPowerOnReset s
  | .softReset value => Sys2Proof.Machine.execSoftReset value s
  | .attentionArrival value => Sys2Proof.Machine.execAttentionArrival value s
  | .summaryWrite value => Sys2Proof.Machine.execSummaryWrite value s
  | .summaryEnableWrite value => Sys2Proof.Machine.execSummaryEnableWrite value s
  | .registerWriteIgnored addr value => Sys2Proof.Machine.execRegisterWriteIgnored addr value s
  | .hostRamWrite addr value => Sys2Proof.Machine.execHostRamWrite addr value s
  | .laneIdleDetected lane run => Sys2Proof.Machine.execLaneIdleDetected lane run s
  | .laneWordArrival lane s7 s8 s9 => Sys2Proof.Machine.execLaneWordArrival lane s7 s8 s9 s
  | .frameStart => Sys2Proof.Machine.execFrameStart s
  | .computationComplete => Sys2Proof.Machine.execComputationComplete s
  | .refusedKind => Sys2Proof.Machine.execRefusedKind s
  | .adoptMode => Sys2Proof.Machine.execAdoptMode s
  | .adoptLoad => Sys2Proof.Machine.execAdoptLoad s
  | .adoptLane => Sys2Proof.Machine.execAdoptLane s
  | .adoptLink => Sys2Proof.Machine.execAdoptLink s
  | .gapRequestApply => Sys2Proof.Machine.execGapRequestApply s
  | .tableLoad => Sys2Proof.Machine.execTableLoad s
  | .tableDump => Sys2Proof.Machine.execTableDump s
  | .tableDumpDone => Sys2Proof.Machine.execTableDumpDone s
  | .modeGoDormant => Sys2Proof.Machine.execModeGoDormant s
  | .modeGoStandby => Sys2Proof.Machine.execModeGoStandby s
  | .modeGoActive => Sys2Proof.Machine.execModeGoActive s
  | .modeGoCalibrate => Sys2Proof.Machine.execModeGoCalibrate s
  | .abandonTransition => Sys2Proof.Machine.execAbandonTransition s
  | .abandonCapture => Sys2Proof.Machine.execAbandonCapture s
  | .clearSticky => Sys2Proof.Machine.execClearSticky s
  | .clearLane => Sys2Proof.Machine.execClearLane s
  | .clearChannelCounts => Sys2Proof.Machine.execClearChannelCounts s
  | .clearNoticeHeader => Sys2Proof.Machine.execClearNoticeHeader s
  | .channelStop => Sys2Proof.Machine.execChannelStop s
  | .channelResume => Sys2Proof.Machine.execChannelResume s
  | .channelRestart => Sys2Proof.Machine.execChannelRestart s
  | .capture => Sys2Proof.Machine.execCapture s
  | .linkGrant => Sys2Proof.Machine.execLinkGrant s
  | .messageSent => Sys2Proof.Machine.execMessageSent s
  | .linkIdleDetected run => Sys2Proof.Machine.execLinkIdleDetected run s
  | .ackAddressDiscard idleBits => Sys2Proof.Machine.execAckAddressDiscard idleBits s
  | .ackArrival s7 s8 s9 => Sys2Proof.Machine.execAckArrival s7 s8 s9 s
  | .replyTimeout => Sys2Proof.Machine.execReplyTimeout s
  | .laneStartEdge lane before now => Sys2Proof.Machine.execLaneStartEdge lane before now s
  | .laneFalseStart lane s7 s8 s9 => Sys2Proof.Machine.execLaneFalseStart lane s7 s8 s9 s
  | .linkStartEdge before now => Sys2Proof.Machine.execLinkStartEdge before now s
  | .linkFalseStart s7 s8 s9 => Sys2Proof.Machine.execLinkFalseStart s7 s8 s9 s
  | .linkCharacterArrival s7 s8 s9 => Sys2Proof.Machine.execLinkCharacterArrival s7 s8 s9 s
  | .refusedRange => Sys2Proof.Machine.execRefusedRange s

end Sys2Proof.Machine
end

