-- ==== Sys2Proof/WellFormed.lean ====
section
/-! DEFINITION. When a command's operands are those of the event its row names: a write the row covers, samples that decide
what the row says they decide. -/

namespace Sys2Proof

/-- A register write that the part ignores (R155, R156): IDENT, CONTROL with its reset bit clear, or no register at all. -/
def ignoredWrite (addr : BitVec 12) (value : Word) : Bool :=
  decide (addr.toNat = 0) || decide (4 < addr.toNat) || (decide (addr.toNat = 4) && !value.getLsbD 0)

/-- The operands of a command fit the row it stands for. -/
def Instr.wellFormed : Instr → Bool
  | .powerOnReset => true
  | .softReset value => value.getLsbD 0
  | .attentionArrival _ => true
  | .summaryWrite _ => true
  | .summaryEnableWrite _ => true
  | .registerWriteIgnored addr value => ignoredWrite addr value
  | .hostRamWrite _ _ => true
  | .laneIdleDetected _ run => decide (Machine.laneIdleSamples ≤ run)
  | .laneWordArrival _ s7 s8 s9 => !(Machine.majority s7 s8 s9).getLsbD 0
  | .frameStart => true
  | .computationComplete => true
  | .refusedKind => true
  | .adoptMode => true
  | .adoptLoad => true
  | .adoptLane => true
  | .adoptLink => true
  | .gapRequestApply => true
  | .tableLoad => true
  | .tableDump => true
  | .tableDumpDone => true
  | .modeGoDormant => true
  | .modeGoStandby => true
  | .modeGoActive => true
  | .modeGoCalibrate => true
  | .abandonTransition => true
  | .abandonCapture => true
  | .clearSticky => true
  | .clearLane => true
  | .clearChannelCounts => true
  | .clearNoticeHeader => true
  | .channelStop => true
  | .channelResume => true
  | .channelRestart => true
  | .capture => true
  | .linkGrant => true
  | .messageSent => true
  | .linkIdleDetected run => decide (Machine.linkIdleSamples ≤ run)
  | .ackAddressDiscard idleBits => decide (Machine.addressIdleBits ≤ idleBits)
  | .ackArrival s7 s8 s9 =>
    !Machine.charStart (Machine.majority s7 s8 s9) && Machine.charStop (Machine.majority s7 s8 s9)
  | .replyTimeout => true
  | .laneStartEdge _ before now => before && !now
  | .laneFalseStart _ s7 s8 s9 => Machine.majorityBit s7 s8 s9
  | .linkStartEdge before now => before && !now
  | .linkFalseStart s7 s8 s9 => Machine.majorityBit s7 s8 s9
  | .linkCharacterArrival s7 s8 s9 => !Machine.charStart (Machine.majority s7 s8 s9)
  | .refusedRange => true

end Sys2Proof
end

