-- ==== Sys2Proof/Safety.lean ====
section
/-! DEFINITION. What claims about the LT620 are stated in: what a completed request, an ended scan and a written notice leave, and
the invariants of its blocks. Nothing here is part of the machine: each definition says declaratively what an operation of the
machine comes to. -/

namespace Sys2Proof.Safety

open Sys2Proof.Machine

/-! ### The Exchange RAM -/

/-- `m'` is `m` with the words `ws` stored from word address `i` on: canonical, the words in their places, every byte outside
them as in `m`. -/
def Stored (m m' : Memory) (i : Nat) (ws : List Word) : Prop :=
  m'.wf = true ∧ (∀ k, k < ws.length → m'.readWord (i + k) = ws.getD k 0) ∧
    ∀ a, a < 4 * i ∨ 4 * (i + ws.length) ≤ a → m'.readByte a = m.readByte a

/-- `m'` is `m` with the slot of a completed request written (R165, R187): the result payload, the result code and detail,
the first word with mark DONE and the kind and tag as taken; every byte outside those words as in `m`. -/
def SlotWritten (m m' : Memory) (slot : Nat) (kind : Byte) (tag : Half) (code : ResultCode) (detail : Nat)
    (payload : List Word) : Prop :=
  m'.wf = true ∧ m'.readWord (slotWord slot) = firstWord markDone kind tag ∧
    m'.readWord (slotWord slot + 1) = pack16 (u16 code.code) (u16 detail) ∧
    (∀ k, k < payload.length → m'.readWord (slotWord slot + 4 + k) = payload.getD k 0) ∧
    ∀ a, ¬(a / 4 = slotWord slot ∨ a / 4 = slotWord slot + 1 ∨
      (slotWord slot + 4 ≤ a / 4 ∧ a / 4 < slotWord slot + 4 + payload.length)) → m'.readByte a = m.readByte a

/-- Kind and tag with which the Request Engine holds slot `k` as taken (R164, R165; notes/assumptions/13.md): those of the request in
execution where its slot is `k`; else those of the latest entry of the long-running list for that slot; with neither, byte 1 and
bytes 2 and 3 of the slot, little-endian (R187). -/
def TakenWith (m : Memory) (e : RequestEngine) (k : Nat) (kind : Byte) (tag : Half) : Prop :=
  (∀ x, e.execution = some x → x.request.slot = k → kind = x.request.kind ∧ tag = x.request.tag) ∧
    ((∀ x, e.execution = some x → x.request.slot ≠ k) →
      (∀ before x after, e.long = before ++ x :: after → x.slot = k → (∀ y ∈ after, y.slot ≠ k) → kind = x.kind ∧ tag = x.tag) ∧
        ((∀ x ∈ e.long, x.slot ≠ k) →
          kind = m.readByte (0x700 + 128 * k + 1) ∧
            tag = m.readByte (0x700 + 128 * k + 3) ++ m.readByte (0x700 + 128 * k + 2)))

/-- `m` is the Exchange RAM `before` after a soft reset (R172), but for the words of `cut`, in which a dump or a frame record was being
written: identity block with cause SOFT, the words after it to 15, live page and notice header zero; every TAKEN slot DONE with
RESET and detail 0, its kind and tag as taken; every other byte as it was. -/
def SoftResetRam (before m : Memory) (e : RequestEngine) (cut : Nat → Prop) : Prop :=
  m.wf = true ∧ m.readWord 0 = 0x00010620 ∧ m.readWord 1 = 0x40100001 ∧ m.readWord 2 = 0x00000220 ∧
    (∀ i, 3 ≤ i → i < 64 → m.readWord i = 0) ∧ (∀ i, 128 ≤ i → i < 192 → m.readWord i = 0) ∧
    (∀ k, k < 16 → slotMark before k = markTaken →
      (∃ kind tag, TakenWith before e k kind tag ∧ m.readWord (slotWord k) = firstWord markDone kind tag) ∧
        m.readWord (slotWord k + 1) = 34) ∧
    ∀ a, 64 ≤ a / 4 → ¬(128 ≤ a / 4 ∧ a / 4 < 192) → ¬cut (a / 4) →
      (∀ k, k < 16 → slotMark before k = markTaken → a / 4 ≠ slotWord k ∧ a / 4 ≠ slotWord k + 1) →
      m.readByte a = before.readByte a

/-! ### The scan of the request board (R161, R162) -/

/-- The first of the scan positions `next` to 15, counted from `start`, whose slot reads POSTED. -/
def firstPosted (m : Memory) (start next : Nat) : Option Nat :=
  ((List.range (16 - next)).map (next + ·)).find? fun j => slotMark m ((start + j) % 16) == markPosted

/-- The take of the slot at position `j` of a scan from `start` (R162): the slot's first word rewritten with mark TAKEN, its kind
and tag unchanged; the request copied, the cursor after the slot, the scan waiting to go on at the next position. -/
def takenAt (m : Memory) (e : RequestEngine) (start j : Nat) : Memory × RequestEngine :=
  let slot := (start + j) % 16
  (m.writeWord (slotWord slot) (firstWord markTaken (readRequest m slot).kind (readRequest m slot).tag),
    { e with cursor := (slot + 1) % 16, scan := some ⟨start, j + 1⟩, execution := some ⟨readRequest m slot, .taken⟩ })

/-- What a scan comes to once the Request Engine is free (R161): the first POSTED slot from its position on is taken; with
none, the scan ends, or, with a rescan pending, the flag is cleared and a scan of all 16 positions from the cursor takes its
first POSTED slot or ends. -/
def scanned (m : Memory) (e : RequestEngine) : Memory × RequestEngine :=
  match e.scan with
  | none => (m, e)
  | some sc =>
    match firstPosted m sc.start sc.next with
    | some j => takenAt m e sc.start j
    | none =>
      if e.rescan then
        match firstPosted m e.cursor 0 with
        | some j => takenAt m { e with rescan := false } e.cursor j
        | none => (m, { e with rescan := false, scan := none })
      else (m, { e with scan := none })

/-- The part after the Request Engine was released and its scan went on. That the scan comes to its next take or to its end within the
same step, over its positions without interruption, is the model's choice (notes/assumptions/3.md, 4.md). -/
def releasedAndScanned (s : State) : State :=
  { s with
    ram := (scanned s.ram { s.rqe with execution := none }).1
    rqe := (scanned s.ram { s.rqe with execution := none }).2 }

/-- `t` is `s` with the request `r` completed (R165: its slot, then REQ_DONE), the Request Engine released and its scan gone on
(R163; within the same step, by notes/assumptions/3.md and 4.md), and nothing else changed. -/
def Completes (r : Request) (code : ResultCode) (detail : Nat) (payload : List Word) (s t : State) : Prop :=
  ∃ m, SlotWritten s.ram m r.slot r.kind r.tag code detail payload ∧
    t = releasedAndScanned { s with ram := m, xp := portWith (s.xp.summary ||| reqDoneBit) s.xp.enable }

/-- `t` is `s` with the request `r` left TAKEN on the long-running list (R164), the Request Engine released and its scan gone on
(within the same step, by notes/assumptions/3.md and 4.md). -/
def StaysTaken (r : Request) (owner : LongOwner) (s t : State) : Prop :=
  t = releasedAndScanned { s with rqe := { s.rqe with long := s.rqe.long ++ [⟨r.slot, r.kind, r.tag, owner⟩] } }

/-- `t` is `s` with the long-running request that waited with `owner` completed (R164, R165): its entry off the list, its slot
written, REQ_DONE set; nothing else changed. With no such entry `t` is `s`. -/
def LongCompletes (owner : LongOwner) (code : ResultCode) (detail : Nat) (payload : List Word) (s t : State) : Prop :=
  match s.rqe.long.find? fun e => e.owner == owner with
  | none => t = s
  | some e =>
    ∃ m, SlotWritten s.ram m e.slot e.kind e.tag code detail payload ∧
      t = { s with
            ram := m
            rqe := { s.rqe with long := s.rqe.long.filter fun x => x.owner != owner }
            xp := portWith (s.xp.summary ||| reqDoneBit) s.xp.enable }

/-! ### Notices (R175, R176) -/

/-- `t` is `s` after the Notice Writer took an offered notice: nothing for a masked kind; for a full list or an inconsistent
read count the dropped count and the flag; otherwise the record in its ring position, the write count, and NOTICE_NEW. The
header's flags byte is 0 but for READ_COUNT_BAD (notes/assumptions/25.md). -/
def NoticeTaken (kind : NoticeKind) (subject : Nat) (first second : Word) (s t : State) : Prop :=
  if s.fcu.mode.noticeMask.getLsbD (kind.code - 1) = false then t = s
  else if 64 ≤ occupancy s.ram s.nw then
    ∃ m, Stored s.ram m headerWord
        [pack16 s.nw.writeCount
          (u8 (bitOf (s.nw.readCountBad || decide (64 < occupancy s.ram s.nw))) ++ u8 (min 255 (s.nw.dropped + 1)))] ∧
      t = { s with
            ram := m
            nw := ⟨s.nw.writeCount, min 255 (s.nw.dropped + 1), s.nw.readCountBad || decide (64 < occupancy s.ram s.nw)⟩ }
  else
    ∃ m m',
      Stored s.ram m (noticeWord (s.nw.writeCount.toNat % 64))
        [pack16 s.nw.writeCount (u8 subject ++ u8 kind.code), s.ft.frame, first, second] ∧
      Stored m m' headerWord
        [pack16 (s.nw.writeCount + 1) (u8 (bitOf s.nw.readCountBad) ++ u8 s.nw.dropped)] ∧
      t = { s with
            ram := m'
            nw := { s.nw with writeCount := s.nw.writeCount + 1 }
            xp := portWith (s.xp.summary ||| noticeNewBit) s.xp.enable }

/-- `t` is `s` after the notices of all verdict edges, offered in the order V0 to V7 (R32): for each verdict that rose one with its
number, for each that fell one with its number plus 8; the new set and the old one as values. -/
def VerdictNotices (old new : Byte) (s t : State) : Prop :=
  ∃ u : Nat → State, u 0 = s ∧ u 8 = t ∧ ∀ k, k < 8 →
    if new.getLsbD k = old.getLsbD k then u (k + 1) = u k
    else NoticeTaken .verdict (if new.getLsbD k then k else k + 8) (new.setWidth 32) (old.setWidth 32) (u k) (u (k + 1))

/-- `t` is `s` after the MISSED_SERVICE notice of one channel's deposit, if it offers one (R140, R141): a due message meets a full slot
with the served-since-miss flag set. The channel is as `a` holds it. -/
def MissedNotice (c : ChannelId) (frame : Word) (a : LinkController) (s t : State) : Prop :=
  if frame.toNat % a.record.interval c = 0 ∧ ((a.get c).state = .pending ∨ (a.get c).state = .outstanding) ∧
      (a.get c).served = true then
    match (a.get c).slot with
    | some old => NoticeTaken .missedService c.station (u32 (min 65535 ((a.get c).missed + 1))) old.frame s t
    | none => t = s
  else t = s

/-- `t` is `s` after the two notices of a calibration that ends in step 4 without success (R126, R128, R116). -/
def CalFailedNotices (detail count : Nat) (prior : OpState) (s t : State) : Prop :=
  ∃ u, NoticeTaken .cal detail (u32 count) (u32 prior.code) s u ∧ NoticeTaken .state prior.code 1 6 u t

/-! ### What statements about one block are said with -/

/-- A lane at a frame start (R10, R11): the age up by one, saturating at 255, and the state of a lane that is not SILENT by that age:
LIVE up to the expected interval, HELD up to the hold limit, LOST beyond. -/
def laneAged (x : Lane) : Lane :=
  { x with
    age := min 255 (x.age + 1)
    state :=
      if x.state = .silent then .silent
      else if min 255 (x.age + 1) ≤ x.settings.expected then .live
      else if min 255 (x.age + 1) ≤ x.settings.hold then .held
      else .lost }

/-- A lane is LIVE or HELD in the snapshot. -/
abbrev Available (v : LaneView) : Prop := v.state = .live ∨ v.state = .held

/-- The sign of a reference (R46, R47): 0 counts as positive. -/
def signOf (v : Int) : Int := if v < 0 then -1 else 1

/-- The prediction of stage 4 (R43, R44; the corrected rate is 0 without an IMU, R42). -/
def leanPrediction (c : Computation) (r : Results) : Int := c.leanPrev + r.rates.roll * c.dtMs

/-- The reference of stage 4 in 10⁻⁵ degree (R46 to R48). -/
def leanReference (c : Computation) (r : Results) : Int :=
  match r.lean.band with
  | .none => 0
  | .kinematic => signOf r.rates.yaw * (1000 * angleOf r.lean.tau)
  | .gravity => signOf (c.snapshot.imu.slot.getD 3 0).toInt * (1000 * angleOf r.lean.tau)

/-- The lean of stage 4 before its clamp (R49; R44 and R45 in the band NONE). -/
def leanUnclamped (c : Computation) (r : Results) : Int :=
  match r.lean.band with
  | .none => leanPrediction c r
  | _ => leanPrediction c r + ((leanReference c r - leanPrediction c r) * c.mode.alpha).tdiv 65536

/-- The kinematic tangent before its cap (R46). -/
def kinematicTangent (yaw : Int) (vRef : Nat) : Nat := yaw.natAbs * vRef * 12230 / 16777216

/-- The slip before its saturation (R84). -/
def slipQuotient (front rear : Nat) : Int := (((rear : Int) - front) * 1000).tdiv front

/-- How many of the listed fields, each as written and as adopted, a clamp changed. -/
def clampedFields (fields : List (Nat × Nat)) : Nat := fields.countP fun f => f.1 != f.2

/-- A field brought into `low..high`. -/
def within (low high v : Nat) : Nat := max low (min high v)

/-- The lane settings the lane record holds for a lane (R14, R184): byte 0 enable, byte 1 rate code, byte 2 the expected interval,
byte 3 the hold limit, bytes 4 and 5 max_step, read for FRONT and REAR alone; the hold limit is clamped against the clamped
expected interval. -/
def laneSettingsIn (m : Memory) (l : LaneId) : LaneSettings where
  enable := decide (m.u8At (0x160 + 8 * laneIndex l) ≠ 0)
  rate := min 3 (m.u8At (0x161 + 8 * laneIndex l))
  expected := within 1 16 (m.u8At (0x162 + 8 * laneIndex l))
  hold := max (within 1 16 (m.u8At (0x162 + 8 * laneIndex l))) (m.u8At (0x163 + 8 * laneIndex l))
  maxStep := if l = .front ∨ l = .rear then some (within 1 2000 (m.u16At (0x164 + 8 * laneIndex l))) else none

/-- The fields of a lane's record, as written and as adopted (R14). -/
def laneFields (m : Memory) (l : LaneId) : List (Nat × Nat) :=
  [(m.u8At (0x160 + 8 * laneIndex l), min 1 (m.u8At (0x160 + 8 * laneIndex l))),
    (m.u8At (0x161 + 8 * laneIndex l), (laneSettingsIn m l).rate), (m.u8At (0x162 + 8 * laneIndex l), (laneSettingsIn m l).expected),
    (m.u8At (0x163 + 8 * laneIndex l), (laneSettingsIn m l).hold)]
  ++ (if l = .front ∨ l = .rear then
      [(m.u16At (0x164 + 8 * laneIndex l), within 1 2000 (m.u16At (0x164 + 8 * laneIndex l)))] else [])

/-! #### The application of gap requests -/

/-- `t` is `s` with an ADOPT applied whole and completed (R167): every named record adopted from the standing records at this moment, in
the order of the mask's bits (notes/assumptions/12.md); OK, or CLAMPED with a bit for each record with a clamped field; the four
counts, 0 for a record not named and saturating at 255, in the payload. -/
def AdoptApplied (r : Request) (s t : State) : Prop :=
  ∃ v u, v = { s with
      fcu := { s.fcu with
        mode := if r.param1.getLsbD 0 then (rawMode s.ram).adopted else s.fcu.mode
        load := if r.param1.getLsbD 1 then loadRecordOf s.ram else s.fcu.load }
      ft := { s.ft with
        period := if r.param1.getLsbD 0 then clampPeriod (rawMode s.ram).framePeriod else s.ft.period } } ∧
    u = (let w := if r.param1.getLsbD 2 then adoptLanes v else v
      if r.param1.getLsbD 3 then { w with alc := w.alc.adopt (readLinkRecord w.ram).1 } else w) ∧
    ∀ mode load lanes link : Nat,
      mode = (if r.param1.getLsbD 0 then min 255 (rawMode s.ram).clamps else 0) →
      load = (if r.param1.getLsbD 1 then min 255 (loadRecordClamps s.ram) else 0) →
      lanes = (if r.param1.getLsbD 2 then min 255 (laneClamps s) else 0) →
      link = (if r.param1.getLsbD 3 then min 255 (readLinkRecord s.ram).2 else 0) →
      Completes r (if mode = 0 ∧ load = 0 ∧ lanes = 0 ∧ link = 0 then .ok else .clamped)
        ((if mode = 0 then 0 else 1) + (if load = 0 then 0 else 2) + (if lanes = 0 then 0 else 4) + (if link = 0 then 0 else 8))
        [pack8 (u8 mode) (u8 load) (u8 lanes) (u8 link)] u t

/-- `t` is `s` with a CLEAR applied whole and completed (R168, R29, R17, R152, R177): each named option cleared, nothing it does not
name; OK with detail 0. The cleared header's flags byte is 0 in every bit (notes/assumptions/25.md). -/
def ClearApplied (r : Request) (s t : State) : Prop :=
  ∃ m lanes alc,
    (if r.param1.getLsbD 3 then Stored s.ram m 16 [pack16 s.nw.writeCount 0] else m = s.ram) ∧
    (if r.param1.getLsbD 1 then
      ∀ l, lanes.get l = { s.lanes.get l with flags := ⟨false, false, false, false, false, false⟩, errorCount := 0 }
    else lanes = s.lanes) ∧
    (if r.param1.getLsbD 2 then
      (∀ c, alc.get c = { s.alc.get c with missed := 0 }) ∧
        alc = { s.alc with engine := alc.engine, brake := alc.brake, trailer := alc.trailer, stray := 0 }
    else alc = s.alc) ∧
    Completes r .ok 0 []
      { s with
        ram := m
        lanes := lanes
        alc := alc
        fcu := { s.fcu with sticky := if r.param1.getLsbD 0 then 0 else s.fcu.sticky }
        nw := if r.param1.getLsbD 3 then { s.nw with dropped := 0, readCountBad := false } else s.nw } t

/-- The five fields of the point P(b, g) in the envelope table image (R186), each as written and as clamped (R69). -/
def imagePointFields (m : Memory) (b g : Nat) : List (Nat × Nat) :=
  [(m.u16At (0x300 + 16 * (4 * b + g)), within 10 400 (m.u16At (0x300 + 16 * (4 * b + g)))),
    (m.u16At (0x302 + 16 * (4 * b + g)), min 1024 (m.u16At (0x302 + 16 * (4 * b + g)))),
    (m.u16At (0x304 + 16 * (4 * b + g)), within 500 12000 (m.u16At (0x304 + 16 * (4 * b + g)))),
    (m.u16At (0x306 + 16 * (4 * b + g)), within 64 230 (m.u16At (0x306 + 16 * (4 * b + g)))),
    (m.u16At (0x308 + 16 * (4 * b + g)), min 128 (m.u16At (0x308 + 16 * (4 * b + g))))]

/-- The two fields of the row Q(b) in the image (R186), each as written and as clamped (R69). -/
def imageRowFields (m : Memory) (b : Nat) : List (Nat × Nat) :=
  [(m.u16At (0x680 + 4 * b), within 29491 32768 (m.u16At (0x680 + 4 * b))),
    (m.u16At (0x682 + 4 * b), within 29491 32768 (m.u16At (0x682 + 4 * b)))]

/-- `t` is `s` with a TABLE_LOAD applied and completed (R68 to R72): every named entry of the candidate by the image's clamped fields,
the others as in use; refused with the position of the first order violation, or the candidate installed whole, OK, or CLAMPED
with the number of fields of named entries that the clamp changed, saturating at 255. -/
def LoadApplied (r : Request) (s t : State) : Prop :=
  ∀ first last : Nat, first = (byteOf r.param2 0).toNat → last = (byteOf r.param2 1).toNat →
    ∃ table : Table,
      (∀ b g, b ≤ 13 → g ≤ 3 → table.point b g =
        if first ≤ b ∧ b ≤ last ∧ r.param1.getLsbD g = true then
          ⟨within 10 400 (s.ram.u16At (0x300 + 16 * (4 * b + g))), min 1024 (s.ram.u16At (0x302 + 16 * (4 * b + g))),
            within 500 12000 (s.ram.u16At (0x304 + 16 * (4 * b + g))), within 64 230 (s.ram.u16At (0x306 + 16 * (4 * b + g))),
            min 128 (s.ram.u16At (0x308 + 16 * (4 * b + g)))⟩
        else s.table.point b g) ∧
      (∀ b, b ≤ 13 → table.row b =
        if byteOf r.param2 2 ≠ 0 ∧ first ≤ b ∧ b ≤ last then
          ⟨within 29491 32768 (s.ram.u16At (0x680 + 4 * b)), within 29491 32768 (s.ram.u16At (0x682 + 4 * b))⟩
        else s.table.row b) ∧
      match firstViolation table with
      | some position => Completes r .refusedOrder position [] s t
      | none =>
        ∀ n, n = clampedFields
            (((List.range 14).flatMap fun b => (List.range 4).flatMap fun g =>
              if first ≤ b ∧ b ≤ last ∧ r.param1.getLsbD g = true then imagePointFields s.ram b g else [])
            ++ (List.range 14).flatMap fun b =>
              if byteOf r.param2 2 ≠ 0 ∧ first ≤ b ∧ b ≤ last then imageRowFields s.ram b else []) →
          Completes r (if n = 0 then .ok else .clamped) (min 255 n) [] { s with table := table } t

/-- The `i`-th comparison of the order check (R71): its position, the earlier entry's value and the later entry's. 104 along lean, grade
by grade; 84 along grade, breakpoint by breakpoint; 26 of the radius rows; torque before brake and front before rear. -/
def orderPair (t : Table) (i : Nat) : Nat × Nat × Nat :=
  if i < 104 then
    let g := i / 26
    let b := i % 26 / 2
    (4 * b + g, if i % 2 = 0 then ((t.point b g).torqueCeiling, (t.point (b + 1) g).torqueCeiling)
      else ((t.point b g).brakeCeiling, (t.point (b + 1) g).brakeCeiling))
  else if i < 188 then
    let b := (i - 104) / 6
    let g := (i - 104) % 6 / 2
    (4 * b + g, if i % 2 = 0 then ((t.point b g).torqueCeiling, (t.point b (g + 1)).torqueCeiling)
      else ((t.point b g).brakeCeiling, (t.point b (g + 1)).brakeCeiling))
  else
    let b := (i - 188) / 2
    (56 + b, if i % 2 = 0 then ((t.row b).front, (t.row (b + 1)).front) else ((t.row b).rear, (t.row (b + 1)).rear))

/-- A channel after a deposit (R140, R141): not due, nothing; due, the message taken by IDLE and by an empty slot, superseding a
full slot with the loss counted and the served-since-miss flag cleared, dropped by STOPPING and STOPPED. -/
def deposited (interval : Nat) (msg : Message) (x : Channel) : Channel :=
  if msg.frame.toNat % interval ≠ 0 then x
  else
    match x.state with
    | .idle => { x with slot := some msg, state := .pending }
    | .pending =>
      if x.slot.isSome then { x with slot := some msg, missed := min 65535 (x.missed + 1), served := false }
      else { x with slot := some msg }
    | .outstanding =>
      if x.slot.isSome then { x with slot := some msg, missed := min 65535 (x.missed + 1), served := false }
      else { x with slot := some msg }
    | .stopping => x
    | .stopped => x

/-- The ALC with the link granted to a channel (R142): its message moves from the slot into the outstanding transaction, completed
with the channel's toggle and the check, rate code and multiplier recorded; the channel OUTSTANDING, the link SENDING, the
message's characters driven onto the line, the receiver off and what it held discarded (R136). A channel whose slot is empty cannot be granted. -/
def granted (c : ChannelId) (a : LinkController) : LinkController :=
  match (a.get c).slot with
  | none => a
  | some msg =>
    { a.set c { a.get c with slot := none, state := .outstanding } with
      link := .sending
      outstanding := some {
        channel := c, message := msg, toggle := (a.get c).toggle, bytes := messageBytes c (a.get c).toggle msg
        rate := a.record.rate, multiplier := a.record.multiplier, window := none, abandoned := false }
      rx := .off
      address := none
      driven := (messageBytes c (a.get c).toggle msg).map characterOf }

/-- The ALC after its arbiter was consulted (R142): a FREE link granted to the PENDING channel that comes first in the order BRAKE,
ENGINE, TRAILER; nothing on a link in use or with no channel PENDING. -/
def arbitrated (a : LinkController) : LinkController :=
  if a.link ≠ .free then a
  else if a.brake.state = .pending then granted .brake a
  else if a.engine.state = .pending then granted .engine a
  else if a.trailer.state = .pending then granted .trailer a
  else a

/-- The plausibility rules of R6 and R7 for a complete burst whose first value is `v`. -/
def Plausible (l : LaneId) (x : Lane) (v : Half) : Prop :=
  match l with
  | .imu => True
  | .front => v.toNat ≤ 10000 ∧ (x.state = .live → ∀ limit, x.settings.maxStep = some limit →
      ((v.toNat : Int) - ((x.slot.getD 0 0).toNat : Int)).natAbs ≤ limit)
  | .rear => v.toNat ≤ 10000 ∧ (x.state = .live → ∀ limit, x.settings.maxStep = some limit →
      ((v.toNat : Int) - ((x.slot.getD 0 0).toNat : Int)).natAbs ≤ limit)
  | .engine => v.toNat ≤ 1024
  | .trailer => v = 0 ∨ v = 1

/-- The values of the burst that a good word completes, if it completes one (R4, R5): a marker word of tag 0 on a one-channel
lane, or the last expected tag of an open burst. -/
def completedBurst (l : LaneId) (x : Lane) (w : LaneWord) : Option (List Half) :=
  if w.marker then (if w.tag = 0 ∧ channelCount l = 1 then some [w.value] else none)
  else
    match x.burst with
    | none => none
    | some vs => if w.tag = vs.length ∧ channelCount l ≤ vs.length + 1 then some (vs ++ [w.value]) else none

/-- The link FREE at the end of the transaction `tr` (R143, R145): a receiver that thereby changes rate enters HUNT and discards
what is in reception (R136, R151; for a held address byte notes/assumptions/15.md). The link stands FREE with no grant in the same
step: the arbiter's consultation comes as the row LINK_GRANT (R142; the model's choice, notes/assumptions/24.md). -/
def linkFreed (a : LinkController) (tr : Transaction) : LinkController :=
  { a with
    link := .free
    outstanding := none
    rx := if tr.rate = a.record.rate then a.rx else .hunt
    address := if tr.rate = a.record.rate then a.address else none }

/-- A channel whose transaction has ended (R145 step 6, R148): STOPPED if it was STOPPING, else by its slot. -/
def channelEnded (x : Channel) : Channel :=
  { x with state := if x.state = .stopping then .stopped else if x.slot.isSome then .pending else .idle }

/-- `t` is `s` with the transaction `tr` of channel `c` removed (R145 step 6): the channel moved on, the link FREE (the grant a step of
its own, notes/assumptions/24.md), and a STOP that waited on this end completed OK with the condition as its detail (R148). -/
def TransactionRemoved (c : ChannelId) (tr : Transaction) (cond : Condition) (s t : State) : Prop :=
  if (s.alc.get c).state = .stopping then
    LongCompletes (.stop c) .ok cond.code [] { s with alc := linkFreed (s.alc.set c (channelEnded (s.alc.get c))) tr } t
  else t = { s with alc := linkFreed (s.alc.set c (channelEnded (s.alc.get c))) tr }

/-- `t` is `s` with the transaction `tr` of channel `c` ended by a miss (R146): last condition, miss count and health; on a move to
LOST a CHANNEL notice and SUMMARY.CHANNEL_LOST; then the removal. -/
def EndsMissed (c : ChannelId) (tr : Transaction) (cond : Condition) (s t : State) : Prop :=
  ∃ u,
    (if s.alc.record.missLimit ≤ min 255 ((s.alc.get c).misses + 1) then
      if (s.alc.get c).health = .lost then
        u = { s with
          alc := s.alc.set c { s.alc.get c with last := cond, misses := min 255 ((s.alc.get c).misses + 1), health := .lost } }
      else
        ∃ v, NoticeTaken .channel c.station 1 (u32 cond.code)
            { s with
              alc := s.alc.set c
                { s.alc.get c with last := cond, misses := min 255 ((s.alc.get c).misses + 1), health := .lost } } v ∧
          u = { v with xp := portWith (v.xp.summary ||| 0x10) v.xp.enable }
    else
      u = { s with
        alc := s.alc.set c
          { s.alc.get c with
            last := cond
            misses := min 255 ((s.alc.get c).misses + 1)
            health := if (s.alc.get c).health = .lost then .lost else .missing } }) ∧
    TransactionRemoved c tr cond u t

/-- `t` is `s` with the transaction `tr` of channel `c` ended good (R145): last condition, toggle flipped, misses 0, served; health
OK with a RECOVERED notice if it was not; a STATION_FAULT notice for that condition; then the removal. -/
def EndsGood (c : ChannelId) (tr : Transaction) (cond : Condition) (s t : State) : Prop :=
  ∃ u v w,
    u = { s with
      alc := s.alc.set c
        { s.alc.get c with
          last := cond, toggle := !(s.alc.get c).toggle, misses := 0, served := true, health := .ok } } ∧
    (if (s.alc.get c).health = .ok then v = u else NoticeTaken .channel c.station 2 (u32 cond.code) u v) ∧
    (if cond = .stationFault then NoticeTaken .channel c.station 3 3 v w else w = v) ∧
    TransactionRemoved c tr cond w t

/-! ### Invariants -/

/-- ALERT is asserted exactly while a bit is set in both SUMMARY and SUMMARY_ENABLE (R158). -/
def AlertFollows (s : State) : Prop := s.xp.alert = decide (s.xp.summary &&& s.xp.enable ≠ 0)

/-- The order conditions (a), (b) and (c) of R64. -/
def TableOrdered (t : Table) : Prop :=
  (∀ b g, b ≤ 12 → g ≤ 3 →
    (t.point (b + 1) g).torqueCeiling ≤ (t.point b g).torqueCeiling ∧
    (t.point (b + 1) g).brakeCeiling ≤ (t.point b g).brakeCeiling) ∧
  (∀ b g, b ≤ 13 → g ≤ 2 →
    (t.point b (g + 1)).torqueCeiling ≤ (t.point b g).torqueCeiling ∧
    (t.point b (g + 1)).brakeCeiling ≤ (t.point b g).brakeCeiling) ∧
  ∀ b, b ≤ 12 → (t.row (b + 1)).front ≤ (t.row b).front ∧ (t.row (b + 1)).rear ≤ (t.row b).rear

/-- Every field of the table lies in its range (R60, R61). -/
def TableInRange (t : Table) : Prop :=
  (∀ b g, b ≤ 13 → g ≤ 3 →
    10 ≤ (t.point b g).slipTarget ∧ (t.point b g).slipTarget ≤ 400 ∧ (t.point b g).torqueCeiling ≤ 1024 ∧
    500 ≤ (t.point b g).brakeCeiling ∧ (t.point b g).brakeCeiling ≤ 12000 ∧
    64 ≤ (t.point b g).frontShare ∧ (t.point b g).frontShare ≤ 230 ∧ (t.point b g).trailerShare ≤ 128) ∧
  ∀ b, b ≤ 13 →
    29491 ≤ (t.row b).front ∧ (t.row b).front ≤ 32768 ∧ 29491 ≤ (t.row b).rear ∧ (t.row b).rear ≤ 32768

/-- The observer's values lie in their ranges (R99, R101). -/
def ObserverInRange (o : Observer) : Prop := o.bucket ≤ 255 ∧ o.quiet ≤ 65535 ∧ o.observed ≤ 3

/-- The values the FCU carries from frame to frame lie in their ranges (R50, R85, R99, R30), those of a computation in flight too. -/
def UnitInRange (f : FrameUnit) : Prop :=
  -6500000 ≤ f.leanFine ∧ f.leanFine ≤ 6500000 ∧ f.reduction ≤ 1024 ∧ ObserverInRange f.observer ∧ f.escCount ≤ 255 ∧
    ∀ c, f.inFlight = some c →
      -6500000 ≤ c.leanPrev ∧ c.leanPrev ≤ 6500000 ∧ c.rPrev ≤ 1024 ∧ ObserverInRange c.observer

/-- The State Controller and the calibration-valid flag agree (R115, R123, R124, R128, R130, R131): outside DORMANT and CALIBRATING
calibration is valid; a running calibration has a prior state (valid unless DORMANT) and a then-target, fewer than 256 frames and
sums that 32 bits hold; outside CALIBRATING the count and sums are 0, and outside LIMP the recovery count is 0. -/
def ControlConsistent (c : StateController) (calValid : Bool) : Prop :=
  c.recovery ≤ 65535 ∧ (c.op ≠ .limp → c.recovery = 0) ∧ (c.op ≠ .calibrating → c.calCount = 0 ∧ c.sums = zeroSums) ∧
    match c.op with
    | .dormant => True
    | .standby => calValid = true
    | .active => calValid = true
    | .limp => calValid = true
    | .calibrating =>
      (c.prior = some .dormant ∨ ((c.prior = some .standby ∨ c.prior = some .active) ∧ calValid = true)) ∧
        (c.thenTarget = some .standby ∨ c.thenTarget = some .active) ∧ c.calCount < 256 ∧
        c.sums.roll.natAbs ≤ 32768 * c.calCount ∧ c.sums.yaw.natAbs ≤ 32768 * c.calCount ∧
        c.sums.ay.natAbs ≤ 32768 * c.calCount ∧ c.sums.az.natAbs ≤ 32768 * c.calCount

/-- A lane context agrees with its settings (R11, R16, R5, R9, R14). -/
def LaneConsistent (l : LaneId) (x : Lane) : Prop :=
  x.age ≤ 255 ∧ x.errorCount ≤ 255 ∧ x.slot.length = channelCount l ∧
    (x.settings.enable = false → x.state = .silent ∧ x.rx = .off ∧ x.burst = none) ∧
    (x.settings.enable = true → x.rx ≠ .off) ∧
    (x.state ≠ .silent → x.state = stateByAge x.age x.settings.expected x.settings.hold) ∧
    (∀ vs, x.burst = some vs → 0 < vs.length ∧ vs.length < channelCount l) ∧
    x.settings.rate ≤ 3 ∧ 1 ≤ x.settings.expected ∧ x.settings.expected ≤ x.settings.hold ∧ x.settings.hold ≤ 255 ∧
    (x.settings.maxStep.isSome = true ↔ l = .front ∨ l = .rear) ∧
    ∀ limit, x.settings.maxStep = some limit → 1 ≤ limit ∧ limit ≤ 2000

/-- All five lane contexts agree with their settings. -/
def LanesConsistent (ls : Lanes) : Prop := ∀ l, LaneConsistent l (ls.get l)

/-- A channel on its own (R139, R141, R146): its slot holds a message exactly in PENDING and maybe in OUTSTANDING, its health
is OK exactly when no miss has followed the last good ending, its counts are in range. -/
def ChannelConsistent (x : Channel) : Prop :=
  (x.state = .pending → x.slot.isSome = true) ∧
    (x.slot.isSome = true → x.state = .pending ∨ x.state = .outstanding) ∧
    (x.health = .ok ↔ x.misses = 0) ∧ x.misses ≤ 255 ∧ x.missed ≤ 65535

/-- The link, its transaction, its receiver and the channels agree (R139, R142, R143, R150): a transaction stands exactly while
the link is not FREE; it belongs to its channel, in OUTSTANDING or STOPPING with the toggle sent, unless it is abandoned; no
other channel has one; the link is RESERVED only for an abandoned one and AWAITING only for one that is not; its reply window
runs exactly from the end of sending; the receiver is off exactly while SENDING, and the line is driven with the transaction's
characters exactly then (R136). -/
def LinkConsistent (a : LinkController) : Prop :=
  ChannelConsistent a.engine ∧ ChannelConsistent a.brake ∧ ChannelConsistent a.trailer ∧ a.stray ≤ 255 ∧
    (a.link = .free ↔ a.outstanding = none) ∧
    (a.rx = .off ↔ a.link = .sending) ∧ (a.link ≠ .sending → a.driven = []) ∧ (a.address.isSome = true → a.rx = .hunt ∨ a.rx = .receive) ∧
    (∀ c, hasTransaction (a.get c) = true → ∃ t, a.outstanding = some t ∧ t.channel = c ∧ t.abandoned = false) ∧
    ∀ t, a.outstanding = some t →
      (t.abandoned = false → hasTransaction (a.get t.channel) = true ∧ (a.get t.channel).toggle = t.toggle) ∧
      t.bytes = messageBytes t.channel t.toggle t.message ∧ (a.link = .sending → a.driven = t.bytes.map characterOf) ∧
      (a.link = .awaiting → t.abandoned = false) ∧ (a.link = .reserved → t.abandoned = true) ∧
      (t.window.isSome = true ↔ a.link ≠ .sending)

/-- The long-running list holds one entry for each owner that has a request waiting, and no other (R164): the running
calibration's, the running capture's, and one for each STOPPING channel. -/
def LongListMatches (s : State) : Prop :=
  (s.rqe.long.map (·.owner)).Nodup ∧
    ((∃ e ∈ s.rqe.long, e.owner = .calibration) ↔ s.sc.op = .calibrating) ∧
    ((∃ e ∈ s.rqe.long, e.owner = .capture) ↔ s.fcu.capture.isSome = true) ∧
    ∀ c, (∃ e ∈ s.rqe.long, e.owner = .stop c) ↔ (s.alc.get c).state = .stopping

/-- The Request Engine agrees with itself (R161, R163): a scan is in progress exactly while a request is in execution (between
commands the scan has run on), a rescan is pending only then, and every slot number is one of the sixteen. -/
def EngineConsistent (e : RequestEngine) : Prop :=
  e.cursor < 16 ∧ (e.scan.isSome = true ↔ e.execution.isSome = true) ∧ (e.rescan = true → e.scan.isSome = true) ∧
    (∀ x, e.execution = some x → x.request.slot < 16) ∧ ∀ x ∈ e.long, x.slot < 16

/-- The adopted mode record lies in its ranges (R37, R53, R93, R104, R132). -/
def ModeInRange (m : ModeRecord) : Prop :=
  1 ≤ m.latchCount ∧ m.latchCount ≤ 15 ∧ 1000 ≤ m.leanWarn ∧ m.leanWarn ≤ 6500 ∧ m.alpha ≤ 4095 ∧
    100 ≤ m.vKinMin ∧ m.vKinMin ≤ 3000 ∧ m.vAccMax ≤ m.vKinMin ∧ 100 ≤ m.slipVMin ∧ m.slipVMin ≤ 3000 ∧
    1 ≤ m.ki ∧ m.ki ≤ 4095 ∧ 1 ≤ m.rel ∧ m.rel ≤ 255 ∧ m.modeGrade ≤ 3 ∧ 1 ≤ m.episodeWeight ∧ m.episodeWeight ≤ 255 ∧
    100 ≤ m.restoreFrames ∧ m.restoreFrames ≤ 65535 ∧ 1 ≤ m.recoveryFrames ∧ m.recoveryFrames ≤ 65535 ∧
    m.fallbackTorque ≤ 1024 ∧ 500 ≤ m.fallbackBrake ∧ m.fallbackBrake ≤ 12000 ∧
    64 ≤ m.fallbackFrontShare ∧ m.fallbackFrontShare ≤ 230

/-- A class's factors lie in 128..256 (R105). -/
def FactorsInRange (f : ClassFactors) : Prop := 128 ≤ f.tf ∧ f.tf ≤ 256 ∧ 128 ≤ f.bf ∧ f.bf ≤ 256

/-- The adopted link record lies in its ranges (R151). -/
def LinkRecordInRange (r : LinkRecord) : Prop :=
  r.rate ≤ 2 ∧ 1 ≤ r.multiplier ∧ r.multiplier ≤ 31 ∧ 1 ≤ r.missLimit ∧ r.missLimit ≤ 15 ∧
    1 ≤ r.engineInterval ∧ r.engineInterval ≤ 8 ∧ 1 ≤ r.brakeInterval ∧ r.brakeInterval ≤ 8 ∧
    1 ≤ r.trailerInterval ∧ r.trailerInterval ≤ 8

/-- A lane's adopted settings lie in their ranges (R14): rate code 0..3, E 1..16, H E..255, max_step 1..2000 for FRONT and REAR and none
for the others. The TRAILER lane may still hold its reset values, of which E, 50, is above its range (R14's note). -/
def LaneSettingsInRange (l : LaneId) (x : LaneSettings) : Prop :=
  (l = .trailer ∧ x = ⟨true, 2, 50, 250, none⟩) ∨
    (x.rate ≤ 3 ∧ 1 ≤ x.expected ∧ x.expected ≤ 16 ∧ x.expected ≤ x.hold ∧ x.hold ≤ 255 ∧
      (x.maxStep.isSome = true ↔ l = .front ∨ l = .rear) ∧ ∀ limit, x.maxStep = some limit → 1 ≤ limit ∧ limit ≤ 2000)

/-- Every adopted record, mode, load, lane and link, and the frame period lie in their ranges. -/
def RecordsInRange (s : State) : Prop :=
  (s.ft.period = 1 ∨ s.ft.period = 2 ∨ s.ft.period = 4) ∧ (s.ft.interval = 1 ∨ s.ft.interval = 2 ∨ s.ft.interval = 4) ∧
    ModeInRange s.fcu.mode ∧ FactorsInRange s.fcu.load.solo ∧ FactorsInRange s.fcu.load.pillion ∧
    FactorsInRange s.fcu.load.pillionLuggage ∧ FactorsInRange s.fcu.load.trailer ∧ LinkRecordInRange s.alc.record ∧
    ∀ l, LaneSettingsInRange l (s.lanes.get l).settings

/-- The running capture counts between 1 and 32 records, has some left to write, and has a first frame number once one is
written (R169, R179). -/
def CaptureConsistent (k : Capture) : Prop :=
  1 ≤ k.count ∧ k.count ≤ 32 ∧ k.next < k.count ∧ (k.first.isSome = true ↔ 0 < k.next)

/-- A safe state of the part: every invariant together. -/
structure Safe (s : State) : Prop where
  memory : s.ram.wf = true
  alert : AlertFollows s
  order : TableOrdered s.table
  range : TableInRange s.table
  unit : UnitInRange s.fcu
  control : ControlConsistent s.sc s.fcu.calValid
  lanes : LanesConsistent s.lanes
  link : LinkConsistent s.alc
  long : LongListMatches s
  engine : EngineConsistent s.rqe
  records : RecordsInRange s
  capture : ∀ k, s.fcu.capture = some k → CaptureConsistent k

end Sys2Proof.Safety
end

