-- ==== Sys2Proof/Certificates/Slice0/Obligations.lean ====
section
/-! DEFINITION. The statements about the LT620 for the provers: what each command does, what every step keeps, what reset leaves. -/

section

open Sys2Proof Sys2Proof.Machine Sys2Proof.Safety

/-! ### The queue, the resets, the registers and the Exchange RAM -/

/-- One step takes the command at the front of the queue and runs it on the part with the queue's rest; on an empty queue the
part idles (spec/95: each command is one indivisible step; the idling is the model's choice, notes/assumptions/1.md). -/
def Obligations.StepRunsFrontCommand : Prop :=
  (∀ (s : State) (c : Instr) (rest : List Instr), s.pending = c :: rest → step s = exec c { s with pending := rest }) ∧
    ∀ s : State, s.pending = [] → step s = .next s

/-- No command stops the part, and none touches the queue. What a row does where its event cannot arise is the model's choice: it
changes nothing (notes/assumptions/2.md); and that the two resets keep the queue is the model's too (notes/assumptions/16.md). -/
def Obligations.EveryCommandAnswers : Prop :=
  ∀ (c : Instr) (s : State), ∃ t, exec c s = .next t ∧ t.pending = s.pending

/-- The state after power-on reset, block by block (R18, R27, R57, R77, R96, R113, R134, R153, R171, R178, R179), and the command that
puts the part into it from every state. The queue of waiting commands and the model's own count of free values are not the
part's: State.reset has none waiting, and the command keeps both (notes/assumptions/16.md, 17.md). The State Controller's last field,
the mark of an entry to ACTIVE, is the model's own and clear (22.md). -/
def Obligations.PowerOnReset : Prop :=
  ((∀ i, i < 2048 → State.reset.ram.readWord i =
    if i = 0 then 0x00010620 else if i = 1 then 0x40100001 else if i = 2 then 0x00000120 else 0) ∧
  (∀ l, (State.reset.lanes.get l).rx = .idleWait ∧ (State.reset.lanes.get l).burst = none ∧
    (State.reset.lanes.get l).slot = List.replicate (channelCount l) 0 ∧ (State.reset.lanes.get l).age = 255 ∧
    (State.reset.lanes.get l).state = .silent ∧ (State.reset.lanes.get l).flags = ⟨false, false, false, false, false, false⟩ ∧
    (State.reset.lanes.get l).errorCount = 0 ∧ (State.reset.lanes.get l).settings.enable = true ∧
    (State.reset.lanes.get l).settings.rate = 2) ∧
  State.reset.lanes.imu.settings = ⟨true, 2, 1, 5, none⟩ ∧ State.reset.lanes.front.settings = ⟨true, 2, 1, 5, some 300⟩ ∧
  State.reset.lanes.rear.settings = ⟨true, 2, 1, 5, some 300⟩ ∧ State.reset.lanes.engine.settings = ⟨true, 2, 5, 25, none⟩ ∧
  State.reset.lanes.trailer.settings = ⟨true, 2, 50, 250, none⟩ ∧
  State.reset.ft = ⟨2, 2, 0⟩ ∧
  State.reset.fcu =
    { leanFine := 0, biasRoll := 0, biasYaw := 0, calValid := false, reduction := 0, observer := ⟨0, 0, 0⟩,
      prevActiveGrade := 0, prevVerdicts := 0, sticky := 0, escCount := 0, escLatch := false,
      mode := ⟨0x81, 3, 4500, 131, 500, 300, 300, 512, 8, 0, 96, 5000, 500, 384, 3000, 166, 0xFF⟩,
      load := ⟨.solo, ⟨256, 256⟩, ⟨240, 248⟩, ⟨230, 240⟩, ⟨200, 220⟩⟩,
      publications := 0, capture := none, inFlight := none } ∧
  (∀ b g, b ≤ 13 → g ≤ 3 → State.reset.table.point b g =
    ⟨max 20 (120 - (5 * b + 20 * g)), max 64 (1024 - (48 * b + 128 * g)), max 1000 (9000 - (400 * b + 1500 * g)),
      180 - 3 * b, 64 - 4 * b⟩) ∧
  (∀ b, b ≤ 13 → State.reset.table.row b = ⟨32768 - 10 * b * b, 32768 - 15 * b * b⟩) ∧
  State.reset.sc = ⟨.dormant, none, none, 0, ⟨0, 0, 0, 0⟩, 0, none, none, false⟩ ∧
  (∀ c, State.reset.alc.get c = ⟨.idle, none, false, .ok, 0, .none, 0, true⟩) ∧
  State.reset.alc.link = .free ∧ State.reset.alc.outstanding = none ∧ State.reset.alc.stray = 0 ∧
  State.reset.alc.record = ⟨2, 6, 3, 1, 1, 4⟩ ∧ State.reset.alc.rx = .hunt ∧ State.reset.alc.address = none ∧
  State.reset.alc.driven = [] ∧
  State.reset.rqe = ⟨0, none, false, none, []⟩ ∧ State.reset.nw = ⟨0, 0, false⟩ ∧ State.reset.xp = ⟨0x40, 0, false⟩ ∧
  State.reset.freeIndex = 0 ∧ State.reset.pending = []) ∧
  (∀ s : State, exec .powerOnReset s = .next { State.reset with freeIndex := s.freeIndex, pending := s.pending })

/-- A soft reset that meets no dump and no capture record in writing (R172; SoftResetCutsWriting has the rest): every block at its
power-on value; identity block with cause SOFT, live page and notice header zero; every TAKEN slot DONE with RESET and detail 0,
its kind and tag as taken: of the request in execution in that slot, else of the latest long-running entry for it, else as they stand
in the slot (TakenWith; notes/assumptions/13.md); every other byte of the Exchange RAM kept. A write with the reset bit clear is
ignored (R156). The model's, not the spec's: words 3 to 15 of the identity block zeroed (notes/assumptions/18.md), the queue and the
count of free values kept (16.md, 17.md), and a slot judged TAKEN by its mark in the RAM alone (23.md). -/
def Obligations.SoftReset : Prop :=
  (∀ (v : Word) (s : State), v.getLsbD 0 = false → exec (.softReset v) s = .next s) ∧
  ∀ (v : Word) (s : State), v.getLsbD 0 = true → s.ram.wf = true →
    (∀ r w, s.rqe.execution ≠ some ⟨r, .dumping w⟩) → (s.fcu.inFlight = none ∨ recordsNow s.fcu = false) →
    ∃ m, exec (.softReset v) s =
        .next { State.reset with ram := m, freeIndex := s.freeIndex, pending := s.pending } ∧ m.wf = true ∧
      m.readWord 0 = 0x00010620 ∧ m.readWord 1 = 0x40100001 ∧ m.readWord 2 = 0x00000220 ∧
      (∀ i, 3 ≤ i → i < 64 → m.readWord i = 0) ∧ (∀ i, 128 ≤ i → i < 192 → m.readWord i = 0) ∧
      (∀ k, k < 16 → slotMark s.ram k = markTaken →
        (∃ kind tag, TakenWith s.ram s.rqe k kind tag ∧ m.readWord (slotWord k) = firstWord markDone kind tag) ∧
          m.readWord (slotWord k + 1) = 34) ∧
      ∀ a, 64 ≤ a / 4 → ¬(128 ≤ a / 4 ∧ a / 4 < 192) →
        (∀ k, k < 16 → slotMark s.ram k = markTaken → a / 4 ≠ slotWord k ∧ a / 4 ≠ slotWord k + 1) →
        m.readByte a = s.ram.readByte a

/-- A soft reset, whatever it meets (R172): every block at its power-on value; identity block, live page and notice header rewritten,
every TAKEN slot DONE with RESET with the kind and tag it was taken with (TakenWith), every other byte of the Exchange RAM kept. A dump in writing leaves the image words it has
written, up to a point the spec does not give, and the rest as they were, the last word among them (R78); a frame record in writing
does the same to its entry, its frame number word kept (R179). How many words are written is a free value (notes/assumptions/5.md,
6.md). The model's, not the spec's: 13.md, 16.md, 17.md, 18.md and 23.md, as in SoftReset. -/
def Obligations.SoftResetCutsWriting : Prop :=
  ∀ (v : Word) (s : State), v.getLsbD 0 = true → s.ram.wf = true →
    (∀ r w, s.rqe.execution = some ⟨r, .dumping w⟩ → w ≤ 255) → (∀ k, s.fcu.capture = some k → k.next < 32) →
    ∃ m f, exec (.softReset v) s = .next { State.reset with ram := m, freeIndex := f, pending := s.pending } ∧
      SoftResetRam s.ram m s.rqe (fun i =>
        (∃ r w, s.rqe.execution = some ⟨r, .dumping w⟩ ∧ imageWord ≤ i ∧ i < imageWord + 256) ∨
        ∃ k, s.fcu.inFlight.isSome = true ∧ s.fcu.capture = some k ∧ k.skipCurrent = false ∧ captureWord k.next ≤ i ∧
          i < captureWord k.next + 16) ∧
      (∀ r w, s.rqe.execution = some ⟨r, .dumping w⟩ →
        ∃ n, w ≤ n ∧ n ≤ 255 ∧ ∀ i, i < 256 → m.readWord (imageWord + i) =
          if w ≤ i ∧ i < n then imageOf s.table i else s.ram.readWord (imageWord + i)) ∧
      ∀ c k, s.fcu.inFlight = some c → s.fcu.capture = some k → k.skipCurrent = false →
        ∃ n, n ≤ 15 ∧ ∀ i, i < 16 → m.readWord (captureWord k.next + i) =
          if i < n then (frameRecord c (compute c s.table) (throughReport c (compute c s.table) s).sc.op).getD i 0
          else s.ram.readWord (captureWord k.next + i)

/-- An attention arrival, whatever the value written (R161): during a scan it sets the rescan-pending flag and nothing else; with
none in progress a scan of sixteen positions from the cursor takes its first POSTED slot (R162) or ends. And the take itself, by the
bytes of R187: the slot k that is the first from the cursor on whose mark byte, at 0x0700 + 128 k, is 1 gives the request in
execution its kind from byte 0x01, its tag from bytes 0x02 and 0x03, its parameters from the words at 0x08 and 0x0C and its
payload from the 28 words at 0x10 to 0x7F, each little-endian; its mark byte becomes 2 (TAKEN), no other byte changes, and the
cursor moves to the slot after it. That the scan runs over its positions uninterrupted to its first take within this one step, and that
take and execution are two steps, is the model's reading of spec/95_what_each_step_holds.md (notes/assumptions/3.md, 4.md). -/
def Obligations.AttentionArrival : Prop :=
  (∀ (v : Word) (s : State), s.rqe.scan.isSome = true →
    exec (.attentionArrival v) s = .next { s with rqe := { s.rqe with rescan := true } }) ∧
  (∀ (v : Word) (s : State), s.rqe.scan = none → s.rqe.execution = none →
    exec (.attentionArrival v) s =
      .next { s with
        ram := (scanned s.ram { s.rqe with scan := some ⟨s.rqe.cursor, 0⟩ }).1
        rqe := (scanned s.ram { s.rqe with scan := some ⟨s.rqe.cursor, 0⟩ }).2 }) ∧
  ∀ (v : Word) (s : State) (j k a : Nat) (word : Nat → Word),
    s.rqe.scan = none → s.rqe.execution = none → s.ram.wf = true →
    j < 16 → k = (s.rqe.cursor + j) % 16 → a = 0x700 + 128 * k →
    s.ram.readByte a = 1 → (∀ i, i < j → s.ram.readByte (0x700 + 128 * ((s.rqe.cursor + i) % 16)) ≠ 1) →
    (∀ o, word o = s.ram.readByte (a + o + 3) ++ s.ram.readByte (a + o + 2) ++ s.ram.readByte (a + o + 1) ++ s.ram.readByte (a + o)) →
    ∃ m, exec (.attentionArrival v) s =
        .next { s with
          ram := m
          rqe := { s.rqe with
            cursor := (k + 1) % 16
            scan := some ⟨s.rqe.cursor, j + 1⟩
            execution := some ⟨{
              slot := k, kind := s.ram.readByte (a + 1), tag := s.ram.readByte (a + 3) ++ s.ram.readByte (a + 2)
              param1 := word 8, param2 := word 12, payload := (List.range 28).map fun n => word (16 + 4 * n) }, .taken⟩ } } ∧
      m.wf = true ∧ m.readByte a = 2 ∧ ∀ b, b ≠ a → m.readByte b = s.ram.readByte b

/-- The register writes (R156): SUMMARY clears the bits written as one, SUMMARY_ENABLE replaces the seven enables, ALERT follows
both (R158), and a write to IDENT, to an unassigned address or to CONTROL with the reset bit clear changes nothing. That the last
row changes nothing whatever address and value it carries, the other registers' among them, is the model's choice
(notes/assumptions/2.md). -/
def Obligations.RegisterWrites : Prop :=
  (∀ (v : Word) (s : State), exec (.summaryWrite v) s =
    .next { s with
      xp := ⟨s.xp.summary &&& ~~~(v.setWidth 7), s.xp.enable,
        decide ((s.xp.summary &&& ~~~(v.setWidth 7)) &&& s.xp.enable ≠ 0)⟩ }) ∧
  (∀ (v : Word) (s : State), exec (.summaryEnableWrite v) s =
    .next { s with xp := ⟨s.xp.summary, v.setWidth 7, decide (s.xp.summary &&& v.setWidth 7 ≠ 0)⟩ }) ∧
  ∀ (a : BitVec 12) (v : Word) (s : State), exec (.registerWriteIgnored a v) s = .next s

/-- A host write to the Exchange RAM with no dump in writing stores its one word, or is ignored beyond 8 KiB, and changes nothing
else (R155). While a dump is writing, the dump has first reached a word the spec does not give, never its last
(R75; notes/assumptions/5.md), and then the host's word is stored. -/
def Obligations.HostRamWrite : Prop :=
  (∀ (a : BitVec 12) (v : Word) (s : State), s.ram.wf = true → (∀ r w, s.rqe.execution ≠ some ⟨r, .dumping w⟩) →
    ∃ m, exec (.hostRamWrite a v) s = .next { s with ram := m } ∧
      if a.toNat < 2048 then Stored s.ram m a.toNat [v] else m = s.ram) ∧
  ∀ (a : BitVec 12) (v : Word) (s : State) (r : Request) (w : Nat), s.ram.wf = true →
    s.rqe.execution = some ⟨r, .dumping w⟩ → w ≤ 255 →
    ∃ m m' n, exec (.hostRamWrite a v) s =
        .next { s with ram := m', rqe := { s.rqe with execution := some ⟨r, .dumping n⟩ }, freeIndex := s.freeIndex + 1 } ∧
      w ≤ n ∧ n ≤ 255 ∧ Stored s.ram m (imageWord + w) ((List.range (n - w)).map fun k => imageOf s.table (w + k)) ∧
      if a.toNat < 2048 then Stored m m' a.toNat [v] else m' = m

/-- What the host reads (R155, R156, R181): a RAM word below 2048, 0 beyond; IDENT, SUMMARY and SUMMARY_ENABLE at their addresses, 0 at
ATTENTION, CONTROL and every other register address; that SUMMARY reads 0 above its seven bits is the model's choice
(notes/assumptions/25.md). While a dump is writing, a read of the image finds the words the dump has
written by then and the others as they were (R75); how many it has written is a free value, never the last (notes/assumptions/5.md).
Which command a register write is, for every address and value (R156). And the SPI framing (R181): bit 15 of the header write, bit 14
register space, bits 11:0 the word address, which advances by one after each word and wraps from 4095 to 0; words lowest byte
first; a word cut short is not written; a read answers a byte of zeros and then its words; a register write of two words at ATTENTION
is an attention arrival and then a SUMMARY write. That a read is a function of the state and no command is the model's choice
(notes/assumptions/21.md). -/
def Obligations.HostReadsAndTransfers : Prop :=
  ((∀ (a : BitVec 12) (s : State), (∀ r w, s.rqe.execution ≠ some ⟨r, .dumping w⟩) →
    hostReadRam a s = (if a.toNat < 2048 then s.ram.readWord a.toNat else 0, s)) ∧
  (∀ (a : BitVec 12) (s : State) (r : Request) (w : Nat), s.ram.wf = true → s.rqe.execution = some ⟨r, .dumping w⟩ → w ≤ 255 →
    ∃ m n, w ≤ n ∧ n ≤ 255 ∧ Stored s.ram m (imageWord + w) ((List.range (n - w)).map fun k => imageOf s.table (w + k)) ∧
      hostReadRam a s =
        (if imageWord + w ≤ a.toNat ∧ a.toNat < imageWord + n then imageOf s.table (a.toNat - imageWord)
          else if a.toNat < 2048 then s.ram.readWord a.toNat else 0,
        { s with ram := m, rqe := { s.rqe with execution := some ⟨r, .dumping n⟩ }, freeIndex := s.freeIndex + 1 })) ∧
  ∀ s : State, hostReadRegister 0 s = 0x00010620 ∧ hostReadRegister 1 s = 0 ∧ hostReadRegister 2 s = s.xp.summary.setWidth 32 ∧
    hostReadRegister 3 s = s.xp.enable.setWidth 32 ∧ hostReadRegister 4 s = 0 ∧
    ∀ a : BitVec 12, 4 < a.toNat → hostReadRegister a s = 0) ∧
  (∀ (a : BitVec 12) (v : Word), registerWrite a v =
    if a = 1 then .attentionArrival v
    else if a = 2 then .summaryWrite v
    else if a = 3 then .summaryEnableWrite v
    else if a = 4 ∧ v.getLsbD 0 = true then .softReset v
    else .registerWriteIgnored a v) ∧
  (∀ (header : Half) (ws : List Word) (cut : List Byte), header.getLsbD 15 = true → cut.length < 4 →
    spiTransfer header (ws.flatMap (fun w => [byteOf w 0, byteOf w 1, byteOf w 2, byteOf w 3]) ++ cut) =
      (List.range ws.length).map fun i =>
        if header.getLsbD 14 then registerWrite (header.extractLsb' 0 12 + BitVec.ofNat 12 i) (ws.getD i 0)
        else .hostRamWrite (header.extractLsb' 0 12 + BitVec.ofNat 12 i) (ws.getD i 0)) ∧
  (∀ (header : Half) (bytes : List Byte), header.getLsbD 15 = false → spiTransfer header bytes = []) ∧
  (∀ (header : Half) (n : Nat) (s : State), header.getLsbD 15 = false →
    (header.getLsbD 14 = true ∨ ∀ r w, s.rqe.execution ≠ some ⟨r, .dumping w⟩) →
    spiReadTransfer header n s =
      (0 :: (List.range n).flatMap fun i => (fun w => [byteOf w 0, byteOf w 1, byteOf w 2, byteOf w 3])
          (if header.getLsbD 14 then hostReadRegister (header.extractLsb' 0 12 + BitVec.ofNat 12 i) s
            else (hostReadRam (header.extractLsb' 0 12 + BitVec.ofNat 12 i) s).1), s)) ∧
  (∀ (header : Half) (s : State) (v : Word) (t : State), header.getLsbD 15 = false → header.getLsbD 14 = false →
    hostReadRam (header.extractLsb' 0 12) s = (v, t) →
    spiReadTransfer header 1 s = ([0, byteOf v 0, byteOf v 1, byteOf v 2, byteOf v 3], t)) ∧
  spiTransfer 0xC001 [0x01, 0, 0, 0, 0x7F, 0, 0, 0] = [.attentionArrival 0x00000001, .summaryWrite 0x0000007F] ∧
  spiTransfer 0x8FFF [0x11, 0x22, 0x33, 0x44, 0x55, 0, 0, 0] = [.hostRamWrite 0xFFF 0x44332211, .hostRamWrite 0 0x00000055] ∧
  spiTransfer 0x8010 [1, 2, 3] = [] ∧ spiTransfer 0x4002 [1, 0, 0, 0] = [] ∧
  spiTransfer 0xC004 [1, 0, 0, 0, 9, 9, 9, 9] = [.softReset 1, .registerWriteIgnored 5 0x09090909]

/-! ### The sensor lanes -/

/-- The lane receivers' own events (R2): 368 high samples end IDLE_WAIT, a falling edge in HUNT starts RECEIVE, a start bit decided
high returns to HUNT; nothing but that lane's receiver changes, and in any other receiver state nothing (notes/assumptions/2.md).
And the fields of every lane word by bit time (R190, R3): start 0, marker 1, tag 2 to 4 and value 5 to 20, least significant first,
parity good exactly for an even number of ones over 1 to 21, stop 22; with three words written out. Every bit of a lane word, and of a
link character (R136), is decided high exactly when at least two of its three centre samples are. A lane receiver that is not in
RECEIVE decides no word, and the row then changes nothing (notes/assumptions/2.md). -/
def Obligations.LaneReceiverEvents : Prop :=
  ((∀ (l : LaneId) (run : Nat) (s : State), 368 ≤ run → exec (.laneIdleDetected l run) s =
    .next (if (s.lanes.get l).rx = .idleWait then { s with lanes := s.lanes.set l { s.lanes.get l with rx := .hunt } } else s)) ∧
  (∀ (l : LaneId) (s : State), exec (.laneStartEdge l true false) s =
    .next (if (s.lanes.get l).rx = .hunt then { s with lanes := s.lanes.set l { s.lanes.get l with rx := .receive } } else s)) ∧
  ∀ (l : LaneId) (s7 s8 s9 : Bool) (s : State), 2 ≤ bitOf s7 + bitOf s8 + bitOf s9 → exec (.laneFalseStart l s7 s8 s9) s =
    .next (if (s.lanes.get l).rx = .receive then { s with lanes := s.lanes.set l { s.lanes.get l with rx := .hunt } } else s)) ∧
  (laneWordFields (0b1_0_0000000000000001_000_1_0 : BitVec 23) = ⟨false, true, 0, 1, true, true⟩ ∧
  laneWordFields (0b1_1_1000000000000000_011_0_0 : BitVec 23) = ⟨false, false, 3, 0x8000, true, true⟩ ∧
  laneWordFields (0b0_0_1000000000000000_011_0_0 : BitVec 23) = ⟨false, false, 3, 0x8000, false, false⟩ ∧
  ∀ w : BitVec 23,
    (laneWordFields w).start = w.getLsbD 0 ∧ (laneWordFields w).marker = w.getLsbD 1 ∧
      (laneWordFields w).tag = bitOf (w.getLsbD 2) + 2 * bitOf (w.getLsbD 3) + 4 * bitOf (w.getLsbD 4) ∧
      (∀ i, i < 16 → (laneWordFields w).value.getLsbD i = w.getLsbD (5 + i)) ∧
      ((laneWordFields w).parityOk = true ↔ ((List.range 21).countP fun i => w.getLsbD (1 + i)) % 2 = 0) ∧
      (laneWordFields w).stop = w.getLsbD 22) ∧
  (∀ (n i : Nat) (s7 s8 s9 : BitVec n), (majority s7 s8 s9).getLsbD i = true ↔
    2 ≤ bitOf (s7.getLsbD i) + bitOf (s8.getLsbD i) + bitOf (s9.getLsbD i)) ∧
  ∀ (l : LaneId) (s7 s8 s9 : BitVec 23) (s : State), (s.lanes.get l).rx ≠ .receive →
    exec (.laneWordArrival l s7 s8 s9) s = .next s

/-- A word that fails a check (R3, R9): its flags set, the count up by one for each, the open burst discarded, the receiver to HUNT
after a good stop bit and to IDLE_WAIT after a bad one. Holding slot, age, state and everything else are kept. -/
def Obligations.LaneWordFailed : Prop :=
  ∀ (l : LaneId) (s7 s8 s9 : BitVec 23) (w : LaneWord) (s : State), (s.lanes.get l).rx = .receive →
    laneWordFields (majority s7 s8 s9) = w → w.start = false → ¬(w.parityOk = true ∧ w.stop = true) →
    exec (.laneWordArrival l s7 s8 s9) s =
      .next { s with
        lanes := s.lanes.set l { s.lanes.get l with
          rx := if w.stop then .hunt else .idleWait
          burst := none
          flags := { (s.lanes.get l).flags with
            parity := (s.lanes.get l).flags.parity || !w.parityOk
            frame := (s.lanes.get l).flags.frame || !w.stop }
          errorCount := if w.parityOk = false ∧ w.stop = false then min 255 ((s.lanes.get l).errorCount + 2)
            else min 255 ((s.lanes.get l).errorCount + 1) } }

/-- A good word that completes no burst (R4, R5): the receiver to HUNT and the assembler and flags by the two tables; slot, age,
state and everything else are kept. -/
def Obligations.LaneAssembly : Prop :=
  ∀ (l : LaneId) (s7 s8 s9 : BitVec 23) (w : LaneWord) (s : State), (s.lanes.get l).rx = .receive →
    laneWordFields (majority s7 s8 s9) = w → w.start = false → w.parityOk = true → w.stop = true →
    completedBurst l (s.lanes.get l) w = none →
    exec (.laneWordArrival l s7 s8 s9) s =
      .next { s with
        lanes := s.lanes.set l
          (if w.marker then
            if w.tag = 0 then
              if (s.lanes.get l).burst.isSome then
                { s.lanes.get l with
                  rx := .hunt, burst := some [w.value], flags := { (s.lanes.get l).flags with short := true }
                  errorCount := min 255 ((s.lanes.get l).errorCount + 1) }
              else { s.lanes.get l with rx := .hunt, burst := some [w.value] }
            else
              { s.lanes.get l with
                rx := .hunt, burst := none, flags := { (s.lanes.get l).flags with tag := true }
                errorCount := min 255 ((s.lanes.get l).errorCount + 1) }
          else
            match (s.lanes.get l).burst with
            | none =>
              { s.lanes.get l with
                rx := .hunt, flags := { (s.lanes.get l).flags with stray := true }
                errorCount := min 255 ((s.lanes.get l).errorCount + 1) }
            | some vs =>
              if w.tag = vs.length then { s.lanes.get l with rx := .hunt, burst := some (vs ++ [w.value]) }
              else
                { s.lanes.get l with
                  rx := .hunt, burst := none, flags := { (s.lanes.get l).flags with tag := true }
                  errorCount := min 255 ((s.lanes.get l).errorCount + 1) }) }

/-- A complete burst that is plausible by its lane's rule (R6, R7) is accepted (R8): the slot replaced whole, age 0, LIVE, the
assembler in NO_BURST; a lane that was not LIVE reports the change (R12). One that is not plausible is rejected: IMPLAUSIBLE set
and counted, the values discarded, slot, age and state kept. Nothing else changes. -/
def Obligations.LaneBurstComplete : Prop :=
  (∀ (l : LaneId) (s7 s8 s9 : BitVec 23) (w : LaneWord) (vs : List Half) (s : State), (s.lanes.get l).rx = .receive →
    laneWordFields (majority s7 s8 s9) = w → w.start = false → w.parityOk = true → w.stop = true →
    completedBurst l (s.lanes.get l) w = some vs → (channelCount l = 1 → (s.lanes.get l).burst = none) →
    Plausible l (s.lanes.get l) (vs.getD 0 0) → s.ram.wf = true →
    ∃ t, exec (.laneWordArrival l s7 s8 s9) s = .next t ∧
      if (s.lanes.get l).state = .live then
        t = { s with
          lanes := s.lanes.set l { s.lanes.get l with rx := .hunt, burst := none, slot := vs, age := 0, state := .live } }
      else
        NoticeTaken .lane (laneIndex l) 1 (u32 (s.lanes.get l).state.code)
          { s with
            lanes := s.lanes.set l { s.lanes.get l with rx := .hunt, burst := none, slot := vs, age := 0, state := .live } } t) ∧
  (∀ (l : LaneId) (s7 s8 s9 : BitVec 23) (w : LaneWord) (vs : List Half) (s : State), (s.lanes.get l).rx = .receive →
    laneWordFields (majority s7 s8 s9) = w → w.start = false → w.parityOk = true → w.stop = true →
    completedBurst l (s.lanes.get l) w = some vs → (channelCount l = 1 → (s.lanes.get l).burst = none) →
    ¬Plausible l (s.lanes.get l) (vs.getD 0 0) →
    exec (.laneWordArrival l s7 s8 s9) s =
      .next { s with
        lanes := s.lanes.set l { s.lanes.get l with
          rx := .hunt, burst := none, flags := { (s.lanes.get l).flags with implausible := true }
          errorCount := min 255 ((s.lanes.get l).errorCount + 1) } })

/-- A reported change of lane state (R12): a LANE notice with the lane's index, the new state and the old one, and on every entry
to LOST the bit SUMMARY.LANE_LOST; no change, no report. -/
def Obligations.LaneReport : Prop :=
  ∀ (l : LaneId) (before after : LaneState) (s : State), s.ram.wf = true →
    if before = after then reportLane l before after s = s
    else
      ∃ t, NoticeTaken .lane (laneIndex l) (u32 after.code) (u32 before.code) s t ∧
        reportLane l before after s =
          if after = .lost then { t with xp := portWith (t.xp.summary ||| 0x20) t.xp.enable } else t

/-- A lane takes new settings (R15, R16): disabled, its receiver stops, its burst goes and it is SILENT; enabled, its receiver
starts in IDLE_WAIT and it stays SILENT; at a new rate, burst and reception are abandoned; and the state of a lane that is
not SILENT is derived from its age. Age, slot, flags and count are kept, and the same settings again change nothing. -/
def Obligations.LaneAdoption : Prop :=
  ∀ (l : LaneId) (x : Lane) (new : LaneSettings), LaneConsistent l x →
    (new.enable = false → x.adopt new = { x with settings := new, rx := .off, burst := none, state := .silent }) ∧
    (new.enable = true → x.settings.enable = false →
      x.adopt new = { x with settings := new, rx := .idleWait, burst := none, state := .silent }) ∧
    (new.enable = true → x.settings.enable = true →
      x.adopt new =
        { x with
          settings := new
          rx := if new.rate = x.settings.rate then x.rx else .idleWait
          burst := if new.rate = x.settings.rate then x.burst else none
          state := if x.state = .silent then .silent else stateByAge x.age new.expected new.hold }) ∧
    x.adopt x.settings = x

/-! ### The frame cycle -/

/-- A frame start (R21, R22, R10, R23): the frame number up by one, the next interval timed with the adopted period; a computation
begun on the snapshot as it stood, each lane's holding slot, age, state and enable before they age, on the length of the interval that
ended, and on what the FCU holds, R_prev the stored R but 0 in the first computation of a stay in ACTIVE (R85; R88, R99, R126); every lane's age up by
one, saturating at 255, its state re-derived from that age, expected interval and hold limit unless it is SILENT (R11), and each
change reported in lane order (R12). Nothing else changes. That R88, R99 and R126 go before R85's words
where they differ, and the mark of an entry to ACTIVE that this frame start clears, are the model's choice (notes/assumptions/22.md). While a computation is in flight a frame start cannot come, and changes nothing (notes/assumptions/2.md). -/
def Obligations.FrameStart : Prop :=
  (∀ s : State, s.fcu.inFlight.isSome = true → exec .frameStart s = .next s) ∧
  ∀ s : State, s.fcu.inFlight = none →
    exec .frameStart s =
      .next (([.imu, .front, .rear, .engine, .trailer] : List LaneId).foldl
        (fun u l => reportLane l (s.lanes.get l).state (laneAged (s.lanes.get l)).state u)
        { s with
          ft := ⟨s.ft.period, s.ft.period, s.ft.frame + 1⟩
          lanes := ⟨laneAged s.lanes.imu, laneAged s.lanes.front, laneAged s.lanes.rear, laneAged s.lanes.engine,
            laneAged s.lanes.trailer⟩
          fcu := { s.fcu with
            inFlight := some {
              frame := s.ft.frame + 1, dtMs := s.ft.interval, stateAtStart := s.sc.op
              snapshot := ⟨⟨s.lanes.imu.slot, s.lanes.imu.age, s.lanes.imu.state, s.lanes.imu.settings.enable⟩,
                ⟨s.lanes.front.slot, s.lanes.front.age, s.lanes.front.state, s.lanes.front.settings.enable⟩,
                ⟨s.lanes.rear.slot, s.lanes.rear.age, s.lanes.rear.state, s.lanes.rear.settings.enable⟩,
                ⟨s.lanes.engine.slot, s.lanes.engine.age, s.lanes.engine.state, s.lanes.engine.settings.enable⟩,
                ⟨s.lanes.trailer.slot, s.lanes.trailer.age, s.lanes.trailer.state, s.lanes.trailer.settings.enable⟩⟩
              mode := s.fcu.mode, load := s.fcu.load, leanPrev := s.fcu.leanFine, biasRoll := s.fcu.biasRoll
              biasYaw := s.fcu.biasYaw
              rPrev := if s.sc.op = .active ∧ s.sc.activeEntered = true then 0 else s.fcu.reduction
              observer := s.fcu.observer, causes := 0
              calFrame := s.sc.op == .calibrating } }
          sc := { s.sc with activeEntered := false } })

/-- A completion, a calibration frame or not, as the FCU's own state shows it (R34 step 1, R29, R30, R32, R40, R85, R99, R103): the
observer stage 8 left, the causes added to the sticky flags, the escalation counted and latched, verdicts and active grade kept for
the next comparison, one publication more, no computation in flight. The lean and R are those stages 4 and 6 left and biases and
calibration validity are kept, unless it is a calibration frame (CalibrationFrame says what these five are then); what becomes of
a running capture CaptureRecord says. Lanes, timer, table, adopted records, the Request Engine but for its long-running list,
the enables and the queue are kept. SUMMARY (R157): REQ_DONE is set exactly when a long-running request was completed, LIMP exactly when
LIMP was entered, and no bit above them changes. That COMPUTATION_COMPLETE with no computation in flight changes nothing is the
model's choice (notes/assumptions/2.md). -/
def Obligations.CompletionUnit : Prop :=
  (∀ s : State, s.fcu.inFlight = none → exec .computationComplete s = .next s) ∧
  ∀ (s : State) (c : Computation) (r : Results), s.fcu.inFlight = some c → compute c s.table = r →
    ∃ t, exec .computationComplete s = .next t ∧
      t.fcu = { s.fcu with
        leanFine := t.fcu.leanFine, reduction := t.fcu.reduction, biasRoll := t.fcu.biasRoll, biasYaw := t.fcu.biasYaw
        calValid := t.fcu.calValid, observer := r.observer
        sticky := s.fcu.sticky ||| r.causes
        escCount := if r.escalates then min 255 (s.fcu.escCount + 1) else s.fcu.escCount
        escLatch := s.fcu.escLatch || (r.escalates && decide (s.fcu.mode.latchCount ≤ min 255 (s.fcu.escCount + 1)))
        prevVerdicts := r.verdicts, prevActiveGrade := r.activeGrade
        publications := s.fcu.publications + 2, capture := t.fcu.capture, inFlight := none } ∧
      (¬(s.sc.op = .calibrating ∧ c.calFrame = true) →
        t.fcu.leanFine = r.lean.leanFine ∧ t.fcu.reduction = r.reduction ∧ t.fcu.biasRoll = s.fcu.biasRoll ∧
          t.fcu.biasYaw = s.fcu.biasYaw ∧ t.fcu.calValid = s.fcu.calValid) ∧
      t.lanes = s.lanes ∧ t.ft = s.ft ∧ t.table = s.table ∧ t.freeIndex = s.freeIndex ∧ t.pending = s.pending ∧
      t.rqe = { s.rqe with long := t.rqe.long } ∧ t.xp.enable = s.xp.enable ∧
      t.xp.summary.getLsbD 0 = (s.xp.summary.getLsbD 0 || decide (t.rqe.long ≠ s.rqe.long)) ∧
      t.xp.summary.getLsbD 3 = (s.xp.summary.getLsbD 3 || decide (s.sc.op ≠ .limp ∧ t.sc.op = .limp)) ∧
      ∀ i, 4 ≤ i → t.xp.summary.getLsbD i = s.xp.summary.getLsbD i

/-- The deposits of a completion by the operating state it finds (R34 step 2, R117, R140): none in DORMANT; the no-limit values
in CALIBRATING and STANDBY; in ACTIVE the computed values, or the fallback values when the computation escalates; in LIMP the
fallback values. Each channel takes its message by its own state (R140, R141). When all three are taken the arbiter is consulted
(R140, R142): a FREE link is granted at once to the PENDING channel first in the order BRAKE, ENGINE, TRAILER. Nothing else of the
link changes, and in DORMANT, where no message is handed and the arbiter is not consulted, nothing of it at all (R39). -/
def Obligations.CompletionDeposits : Prop :=
  (∀ (s : State) (c : Computation) (r : Results), s.fcu.inFlight = some c → compute c s.table = r →
    ∃ t, exec .computationComplete s = .next t ∧
      ∀ (source : Source) (torque brake share level : Nat),
        (match s.sc.op with
          | .dormant => False
          | .calibrating => source = .none ∧ torque = 1024 ∧ brake = 12000 ∧ share = 0 ∧ level = 0
          | .standby => source = .none ∧ torque = 1024 ∧ brake = 12000 ∧ share = 0 ∧ level = 0
          | .active =>
            if r.escalates then
              source = .fallback ∧ torque = c.mode.fallbackTorque ∧ brake = c.mode.fallbackBrake ∧
                share = c.mode.fallbackFrontShare ∧ level = 0
            else source = .computed ∧ torque = r.c ∧ brake = r.d ∧ share = r.env.frontShare ∧ level = r.level
          | .limp =>
            source = .fallback ∧ torque = c.mode.fallbackTorque ∧ brake = c.mode.fallbackBrake ∧
              share = c.mode.fallbackFrontShare ∧ level = 0) →
        t.alc = arbitrated { s.alc with
          engine := deposited s.alc.record.engineInterval ⟨source, c.frame, .torque torque⟩ s.alc.engine
          brake := deposited s.alc.record.brakeInterval ⟨source, c.frame, .brake brake share⟩ s.alc.brake
          trailer := deposited s.alc.record.trailerInterval ⟨source, c.frame, .trailer level⟩ s.alc.trailer }) ∧
  (∀ (s : State) (c : Computation), s.fcu.inFlight = some c → s.sc.op = .dormant →
    ∃ t, exec .computationComplete s = .next t ∧ t.alc = s.alc ∧ t.sc.op = .dormant)

/-- The live page after a completion (R173, R174, R185): the update counter two on, every word in its place, LIVE_NEW set; state,
counts and biases as they stand after step 4, lane flags and channels as they stand at publication, the capture item with this
completion's record counted (notes/assumptions/10.md). The bits of a lane's error flags byte that name no flag are 0, the model's choice
(25.md). And the whole RAM: a completion stores to the header's first word, the page,
the notice list, the running capture's next entry and the slots of long-running requests, and to nothing else. -/
def Obligations.CompletionPage : Prop :=
  ∀ (s : State) (c : Computation) (r : Results), s.fcu.inFlight = some c → compute c s.table = r → s.ram.wf = true →
    ∃ t, exec .computationComplete s = .next t ∧ t.xp.summary.getLsbD 2 = true ∧
      t.ram.readWord 128 = s.fcu.publications + 2 ∧ t.ram.readWord 129 = c.frame ∧
      t.ram.readWord 130 = pack8 (u8 t.sc.op.code) (u8 (bitOf t.fcu.calValid)) (u8 t.fcu.escCount) (u8 (bitOf t.fcu.escLatch)) ∧
      t.ram.readWord 131 = pack16 (u16 t.sc.recovery) (u16 t.sc.calCount) ∧
      t.ram.readWord 132 = pack16 (toS16 r.newLean) (toS16 t.fcu.biasRoll) ∧
      t.ram.readWord 133 = pack16 (toS16 t.fcu.biasYaw) (u16 (r.speeds.vRef.getD 0)) ∧
      t.ram.readWord 134 = pack16 (u8 r.slipStatus.code ++ u8 r.speeds.source.code) (toS16 r.slip) ∧
      t.ram.readWord 135 = pack16 (u16 r.reduction) (u16 r.c) ∧
      t.ram.readWord 136 = pack16 (u16 r.d) ((0 : Byte) ++ u8 r.env.frontShare) ∧
      t.ram.readWord 137 = pack16 (u16 r.level) (u8 c.mode.modeGrade ++ u8 r.activeGrade) ∧
      t.ram.readWord 138 = pack8 (u8 r.observer.observed) r.causes t.fcu.sticky r.verdicts ∧
      t.ram.readWord 139 = (match s.fcu.capture with
        | none => 0
        | some k => pack8 1 (u8 (if k.skipCurrent then k.next else k.next + 1)) 0 0) ∧
      t.ram.readWord 140 = pack8 (u8 c.snapshot.imu.state.code) (u8 c.snapshot.imu.age) s.lanes.imu.flags.toByte
        (u8 s.lanes.imu.errorCount) ∧
      t.ram.readWord 141 = pack8 (u8 c.snapshot.front.state.code) (u8 c.snapshot.front.age) s.lanes.front.flags.toByte
        (u8 s.lanes.front.errorCount) ∧
      t.ram.readWord 142 = pack8 (u8 c.snapshot.rear.state.code) (u8 c.snapshot.rear.age) s.lanes.rear.flags.toByte
        (u8 s.lanes.rear.errorCount) ∧
      t.ram.readWord 143 = pack8 (u8 c.snapshot.engine.state.code) (u8 c.snapshot.engine.age) s.lanes.engine.flags.toByte
        (u8 s.lanes.engine.errorCount) ∧
      t.ram.readWord 144 = pack8 (u8 c.snapshot.trailer.state.code) (u8 c.snapshot.trailer.age) s.lanes.trailer.flags.toByte
        (u8 s.lanes.trailer.errorCount) ∧
      (∀ ch : ChannelId,
        t.ram.readWord (145 + 2 * (ch.station - 1)) =
          pack8 (u8 (t.alc.get ch).state.code) (u8 (t.alc.get ch).health.code) (u8 (bitOf (t.alc.get ch).toggle))
            (u8 (t.alc.get ch).last.code) ∧
        t.ram.readWord (146 + 2 * (ch.station - 1)) =
          pack16 ((0 : Byte) ++ u8 (t.alc.get ch).misses) (u16 (t.alc.get ch).missed)) ∧
      t.ram.readWord 151 = pack8 (u8 t.alc.stray) 0 0 0 ∧ (∀ i, 152 ≤ i → i < 192 → t.ram.readWord i = 0) ∧
      ∀ a, a / 4 ≠ 16 → ¬(128 ≤ a / 4 ∧ a / 4 < 192) → ¬(960 ≤ a / 4 ∧ a / 4 < 1216) →
        (∀ k, s.fcu.capture = some k → ¬(captureWord k.next ≤ a / 4 ∧ a / 4 < captureWord k.next + 16)) →
        (∀ e ∈ s.rqe.long, ¬(slotWord e.slot ≤ a / 4 ∧ a / 4 < slotWord e.slot + 6)) →
        t.ram.readByte a = s.ram.readByte a

/-- Step 4 of a completion (R36, R130, R131) outside CALIBRATING: the report and the motion data stored; in ACTIVE an unavailable
IMU, an unavailable reference or an escalation enters LIMP with the recovery count at 0 and SUMMARY.LIMP set; in LIMP the
report moves the recovery count, and a full count with the latch clear returns to ACTIVE, a stay that begins (notes/assumptions/22.md); in DORMANT and STANDBY nothing more. -/
def Obligations.LimpJudged : Prop :=
  ∀ (s : State) (c : Computation) (r : Results) (report : LimpReport) (motion : MotionData),
    s.fcu.inFlight = some c → compute c s.table = r →
    report = ⟨!(c.snapshot.imu.state == .live || c.snapshot.imu.state == .held), r.speeds.vRef.isNone,
      decide (r.causes &&& c.mode.escalationMask ≠ 0), r.escalates⟩ →
    motion = ⟨r.speeds.vRef.getD 0, c.snapshot.front.state, c.snapshot.rear.state⟩ →
    ∃ t, exec .computationComplete s = .next t ∧
      match s.sc.op with
      | .dormant => t.sc = { s.sc with lastReport := some report, lastMotion := some motion }
      | .standby => t.sc = { s.sc with lastReport := some report, lastMotion := some motion }
      | .active =>
        if report.imuUnavailable || report.referenceUnavailable || report.escalation then
          t.sc = { s.sc with lastReport := some report, lastMotion := some motion, op := .limp, recovery := 0 } ∧
            t.xp.summary.getLsbD 3 = true
        else t.sc = { s.sc with lastReport := some report, lastMotion := some motion }
      | .limp =>
        let n :=
          if report.imuUnavailable || report.referenceUnavailable || report.maskedCause || report.escalation then 0
          else min 65535 (s.sc.recovery + 1)
        if s.fcu.mode.recoveryFrames ≤ n ∧
            (s.fcu.escLatch || (r.escalates && decide (s.fcu.mode.latchCount ≤ min 255 (s.fcu.escCount + 1)))) = false then
          t.sc = { s.sc with lastReport := some report, lastMotion := some motion, op := .active, recovery := 0, activeEntered := true }
        else t.sc = { s.sc with lastReport := some report, lastMotion := some motion, recovery := n }
      | .calibrating => c.calFrame = false → t.sc = { s.sc with lastReport := some report, lastMotion := some motion }

/-- A calibration frame (R124 to R126, R128, R55, R56): not all of IMU, FRONT and REAR LIVE, or moving, ends the calibration in the
prior state; otherwise it is accumulated; at the 256th an az average below 4904 fails with ATTITUDE, and any other succeeds: the
biases, the initial lean and the calibration-valid flag set, R at 0, the then-target entered. Every end sets the frame count and
the sums to 0; but for a success, lean and R are as stages 4 and 6 left them, biases and validity as they were. The report of the
computation and its motion data are stored, as at every completion (R36, R131, R120), and the SC's other fields are kept. That an entry
to ACTIVE sets the mark activeEntered, a field of the model's own, is the model's choice (notes/assumptions/22.md).
And how its request is answered, a capture running or not (R165, R187), SUMMARY.REQ_DONE set with every answer (R157):
CAL_FAILED with detail 1 for a lane that is not LIVE, 2 for motion, 3 for attitude, and the frame count reached, 256 for attitude;
OK with the biases and the initial lean for success; a frame that is accumulated leaves the slot as it was. Where a capture whose
request was posted in the same slot ends at this very completion, its later answer stands there, as CaptureRecord says. -/
def Obligations.CalibrationFrame : Prop :=
  (∀ (s : State) (c : Computation) (r : Results) (sums : CalSums) (report : LimpReport) (motion : MotionData),
    s.fcu.inFlight = some c → compute c s.table = r → s.sc.op = .calibrating → c.calFrame = true →
    ControlConsistent s.sc s.fcu.calValid →
    report = ⟨!(c.snapshot.imu.state == .live || c.snapshot.imu.state == .held), r.speeds.vRef.isNone,
      decide (r.causes &&& c.mode.escalationMask ≠ 0), r.escalates⟩ →
    motion = ⟨r.speeds.vRef.getD 0, c.snapshot.front.state, c.snapshot.rear.state⟩ →
    sums = ⟨s.sc.sums.roll + c.snapshot.imu.signed 0, s.sc.sums.yaw + c.snapshot.imu.signed 1,
      s.sc.sums.ay + c.snapshot.imu.signed 3, s.sc.sums.az + c.snapshot.imu.signed 4⟩ →
    ∃ t, exec .computationComplete s = .next t ∧
      t.sc = { s.sc with
        lastReport := some report, lastMotion := some motion, op := t.sc.op, calCount := t.sc.calCount, sums := t.sc.sums
        activeEntered := if t.sc.op = .active then true else s.sc.activeEntered } ∧
      let leanKept := t.fcu.leanFine = r.lean.leanFine ∧ t.fcu.reduction = r.reduction ∧ t.fcu.biasRoll = s.fcu.biasRoll ∧
        t.fcu.biasYaw = s.fcu.biasYaw ∧ t.fcu.calValid = s.fcu.calValid
      let failed := some t.sc.op = s.sc.prior ∧ t.sc.calCount = 0 ∧ t.sc.sums = ⟨0, 0, 0, 0⟩ ∧ leanKept
      if ¬(c.snapshot.imu.state = .live ∧ c.snapshot.front.state = .live ∧ c.snapshot.rear.state = .live) then failed
      else if 50 ≤ c.snapshot.front.unsigned 0 ∨ 50 ≤ c.snapshot.rear.unsigned 0 ∨ 500 ≤ (c.snapshot.imu.signed 0).natAbs ∨
          500 ≤ (c.snapshot.imu.signed 1).natAbs then failed
      else if s.sc.calCount + 1 < 256 then
        t.sc.op = .calibrating ∧ t.sc.calCount = s.sc.calCount + 1 ∧ t.sc.sums = sums ∧ leanKept
      else if sums.az.tdiv 256 < 4904 then failed
      else
        some t.sc.op = s.sc.thenTarget ∧ t.sc.calCount = 0 ∧ t.sc.sums = ⟨0, 0, 0, 0⟩ ∧ t.fcu.calValid = true ∧
          t.fcu.biasRoll = sums.roll.tdiv 256 ∧ t.fcu.biasYaw = sums.yaw.tdiv 256 ∧ t.fcu.reduction = 0 ∧
          t.fcu.leanFine = 1000 * initialLean (sums.ay.tdiv 256) (sums.az.tdiv 256)) ∧
  (∀ (s : State) (c : Computation) (e : LongEntry) (sums : CalSums),
    s.fcu.inFlight = some c → s.sc.op = .calibrating → c.calFrame = true → s.ram.wf = true →
    (s.rqe.long.find? fun x => x.owner == .calibration) = some e → e.slot < 16 → s.sc.calCount < 256 →
    (∀ x, (s.rqe.long.find? fun x => x.owner == .capture) = some x → x.slot < 16 ∧
      (x.slot = e.slot → ∀ k, s.fcu.capture = some k → k.skipCurrent = true ∨ k.next + 1 < k.count)) →
    sums = ⟨s.sc.sums.roll + c.snapshot.imu.signed 0, s.sc.sums.yaw + c.snapshot.imu.signed 1,
      s.sc.sums.ay + c.snapshot.imu.signed 3, s.sc.sums.az + c.snapshot.imu.signed 4⟩ →
    ∃ t, exec .computationComplete s = .next t ∧
      let answered := fun (result first : Word) => t.ram.readWord (slotWord e.slot) = firstWord markDone e.kind e.tag ∧
        t.ram.readWord (slotWord e.slot + 1) = result ∧ t.ram.readWord (slotWord e.slot + 4) = first ∧
        t.xp.summary.getLsbD 0 = true
      if ¬(c.snapshot.imu.state = .live ∧ c.snapshot.front.state = .live ∧ c.snapshot.rear.state = .live) then
        answered (pack16 32 1) (u32 s.sc.calCount)
      else if 50 ≤ c.snapshot.front.unsigned 0 ∨ 50 ≤ c.snapshot.rear.unsigned 0 ∨ 500 ≤ (c.snapshot.imu.signed 0).natAbs ∨
          500 ≤ (c.snapshot.imu.signed 1).natAbs then answered (pack16 32 2) (u32 s.sc.calCount)
      else if s.sc.calCount + 1 < 256 then
        ∀ a, slotWord e.slot ≤ a / 4 → a / 4 < slotWord e.slot + 32 → t.ram.readByte a = s.ram.readByte a
      else if sums.az.tdiv 256 < 4904 then answered (pack16 32 3) 256
      else
        answered 0 (pack16 (toS16 (sums.roll.tdiv 256)) (toS16 (sums.yaw.tdiv 256))) ∧
          t.ram.readWord (slotWord e.slot + 5) = pack16 (toS16 (initialLean (sums.ay.tdiv 256) (sums.az.tdiv 256))) 0)

/-- Step 6 of a completion (R35, R179, R169): a running capture that was not accepted during this computation writes this
computation's frame record into its next entry, and at its Nth record ends, its request answered OK with the records
written and the first frame number (R165, R187) and SUMMARY.REQ_DONE set (R157); one accepted during it writes nothing and begins
with the next; with none running nothing is captured and the capture area is left alone. And what the sixteen words of a frame
record hold, each item of R180 at its bits in R189's layout; that bits 31:27 of the word at 0x14, which hold none, are 0 is the model's choice
(notes/assumptions/25.md). -/
def Obligations.CaptureRecord : Prop :=
  (∀ (s : State) (c : Computation), s.fcu.inFlight = some c → s.fcu.capture = none → s.ram.wf = true →
    (∀ e ∈ s.rqe.long, e.slot < 16) →
    ∃ t, exec .computationComplete s = .next t ∧ t.fcu.capture = none ∧
      ∀ i, 1216 ≤ i → i < 1728 → t.ram.readWord i = s.ram.readWord i) ∧
  (∀ (s : State) (c : Computation) (r : Results) (k : Capture),
    s.fcu.inFlight = some c → compute c s.table = r → s.fcu.capture = some k → CaptureConsistent k → s.ram.wf = true →
    (∀ e ∈ s.rqe.long, e.slot < 16) →
    ∃ t, exec .computationComplete s = .next t ∧
      if k.skipCurrent then
        t.fcu.capture = some { k with skipCurrent := false } ∧
          ∀ i, 1216 ≤ i → i < 1728 → t.ram.readWord i = s.ram.readWord i
      else
        (∀ i, i < 16 → t.ram.readWord (captureWord k.next + i) = (frameRecord c r t.sc.op).getD i 0) ∧
        (∀ i, 1216 ≤ i → i < 1728 → ¬(captureWord k.next ≤ i ∧ i < captureWord k.next + 16) →
          t.ram.readWord i = s.ram.readWord i) ∧
        if k.next + 1 < k.count then
          t.fcu.capture = some { k with next := k.next + 1, first := if k.next = 0 then some c.frame else k.first }
        else
          t.fcu.capture = none ∧
            ∀ e, (s.rqe.long.find? fun x => x.owner == .capture) = some e →
              t.ram.readWord (slotWord e.slot) = firstWord markDone e.kind e.tag ∧
              t.ram.readWord (slotWord e.slot + 1) = pack16 0 (u16 k.count) ∧
              t.ram.readWord (slotWord e.slot + 4) = u32 k.count ∧
              t.ram.readWord (slotWord e.slot + 5) = (if k.next = 0 then c.frame else k.first.getD 0) ∧
              t.xp.summary.getLsbD 0 = true) ∧
  ∀ (c : Computation) (r : Results) (opAfter : OpState) (w : Nat → Word), (∀ i, w i = (frameRecord c r opAfter).getD i 0) →
    (frameRecord c r opAfter).length = 16 ∧
    (w 0 = pack16 (c.snapshot.imu.slot.getD 0 0) (c.snapshot.imu.slot.getD 1 0) ∧
      w 1 = pack16 (c.snapshot.imu.slot.getD 2 0) (c.snapshot.imu.slot.getD 3 0) ∧
      w 2 = pack16 (c.snapshot.imu.slot.getD 4 0) (c.snapshot.front.slot.getD 0 0) ∧
      w 3 = pack16 (c.snapshot.rear.slot.getD 0 0) (c.snapshot.engine.slot.getD 0 0) ∧
      w 4 = pack16 (BitVec.ofInt 16 r.rates.roll) (BitVec.ofInt 16 r.rates.yaw)) ∧
    ((w 5).extractLsb' 0 14 = BitVec.ofNat 14 r.lean.tau ∧ (w 5).extractLsb' 14 2 = BitVec.ofNat 2 c.mode.modeGrade ∧
      (w 5).extractLsb' 16 2 = BitVec.ofNat 2 r.observer.observed ∧
      (w 5).extractLsb' 18 3 = BitVec.ofNat 3 c.stateAtStart.code ∧ (w 5).extractLsb' 21 3 = BitVec.ofNat 3 opAfter.code ∧
      (w 5).extractLsb' 24 3 = BitVec.ofNat 3 c.dtMs ∧ (w 5).extractLsb' 27 5 = 0) ∧
    ((w 6).extractLsb' 0 14 = BitVec.ofInt 14 r.prevLean ∧ (w 6).extractLsb' 14 14 = BitVec.ofInt 14 r.newLean ∧
      (w 6).extractLsb' 28 2 = BitVec.ofNat 2 r.cls.code ∧ (w 6).extractLsb' 30 2 = BitVec.ofNat 2 r.activeGrade ∧
      w 7 = pack16 (u16 r.speeds.kf) (u16 r.speeds.kr)) ∧
    ((w 8).extractLsb' 0 14 = BitVec.ofNat 14 (r.speeds.front.getD 0) ∧
      (w 8).extractLsb' 14 14 = BitVec.ofNat 14 (r.speeds.rear.getD 0) ∧
      (w 8).extractLsb' 28 2 = BitVec.ofNat 2 r.speeds.source.code ∧ (w 8).getLsbD 30 = r.present ∧
      (w 8).getLsbD 31 = (c.snapshot.trailer.slot.getD 0 0).getLsbD 0) ∧
    ((w 9).extractLsb' 0 11 = BitVec.ofInt 11 r.slip ∧ (w 9).extractLsb' 11 13 = BitVec.ofNat 13 r.level ∧
      (w 9).extractLsb' 24 8 = BitVec.ofNat 8 r.observer.bucket) ∧
    ((w 10).extractLsb' 0 9 = BitVec.ofNat 9 r.env.slipTarget ∧ (w 10).extractLsb' 9 11 = BitVec.ofNat 11 r.env.torqueCeiling ∧
      (w 10).extractLsb' 20 11 = BitVec.ofNat 11 r.c ∧ (w 10).getLsbD 31 = r.escalates) ∧
    ((w 11).extractLsb' 0 11 = BitVec.ofNat 11 c.rPrev ∧ (w 11).extractLsb' 11 11 = BitVec.ofNat 11 r.reduction ∧
      (w 11).extractLsb' 22 2 = BitVec.ofNat 2 c.snapshot.imu.state.code ∧
      (w 11).extractLsb' 24 2 = BitVec.ofNat 2 c.snapshot.front.state.code ∧
      (w 11).extractLsb' 26 2 = BitVec.ofNat 2 c.snapshot.rear.state.code ∧
      (w 11).extractLsb' 28 2 = BitVec.ofNat 2 c.snapshot.engine.state.code ∧
      (w 11).extractLsb' 30 2 = BitVec.ofNat 2 c.snapshot.trailer.state.code) ∧
    ((w 12).extractLsb' 0 14 = BitVec.ofNat 14 r.env.brakeCeiling ∧ (w 12).extractLsb' 14 14 = BitVec.ofNat 14 r.d ∧
      (w 12).extractLsb' 28 2 = BitVec.ofNat 2 r.slipStatus.code ∧ (w 12).extractLsb' 30 2 = BitVec.ofNat 2 r.lean.band.code) ∧
    (w 13 = pack8 (BitVec.ofNat 8 (256 - r.factors.tf)) (BitVec.ofNat 8 (256 - r.factors.bf)) (BitVec.ofNat 8 r.env.trailerShare)
        (BitVec.ofNat 8 r.env.frontShare) ∧
      w 14 = pack16 (r.verdicts ++ r.causes) (BitVec.ofNat 16 r.observer.quiet) ∧ w 15 = c.frame)

/-- The notices of a completion, every one it offers, in their order (R34, R176): a MISSED_SERVICE notice for each channel whose full slot
its deposit supersedes after a served message (R141; the order of the channels is the model's, notes/assumptions/9.md); ESCALATION
with the causes that met the mask, the count and the latch (R33); GRADE with the new active grade, the previous one and the observed
grade (R103); a VERDICT notice for each rise and each fall, V0 to V7 (R32); then at step 4 STATE with LIMP_ENTRY (R130) or RECOVERY
(R131), or at a calibration's end CAL (R128) and then STATE with CAL_SUCCESS or CAL_FAILED (R116). The Notice Writer, the notice list
and the header's first word are left as the last of them leaves them. The prior state and then-target of a calibration with none
recorded, which no run reaches, are read as DORMANT and STANDBY. -/
def Obligations.CompletionNotices : Prop :=
  ∀ (s : State) (c : Computation) (r : Results) (n : Nat) (sums : CalSums), s.fcu.inFlight = some c → compute c s.table = r →
    s.ram.wf = true → (∀ e ∈ s.rqe.long, e.slot < 16) →
    n = (if r.escalates ∨ r.speeds.vRef = none ∨ ¬Available c.snapshot.imu ∨ r.causes &&& c.mode.escalationMask ≠ 0 then 0
      else min 65535 (s.sc.recovery + 1)) →
    sums = ⟨s.sc.sums.roll + c.snapshot.imu.signed 0, s.sc.sums.yaw + c.snapshot.imu.signed 1,
      s.sc.sums.ay + c.snapshot.imu.signed 3, s.sc.sums.az + c.snapshot.imu.signed 4⟩ →
    ∃ t u1 u2 u3 u4 u5 u6 u7, exec .computationComplete s = .next t ∧
      (if s.sc.op = .dormant then u3 = s
      else MissedNotice .engine c.frame s.alc s u1 ∧ MissedNotice .brake c.frame s.alc u1 u2 ∧
        MissedNotice .trailer c.frame s.alc u2 u3) ∧
      (if r.escalates then
        NoticeTaken .escalation (r.causes &&& c.mode.escalationMask).toNat (u32 (min 255 (s.fcu.escCount + 1)))
          (if s.fcu.escLatch = true ∨ s.fcu.mode.latchCount ≤ min 255 (s.fcu.escCount + 1) then 1 else 0) u3 u4
      else u4 = u3) ∧
      (if r.activeGrade = s.fcu.prevActiveGrade then u5 = u4
      else NoticeTaken .grade r.activeGrade (u32 s.fcu.prevActiveGrade) (u32 r.observer.observed) u4 u5) ∧
      VerdictNotices s.fcu.prevVerdicts r.verdicts u5 u6 ∧
      (match s.sc.op with
        | .dormant => u7 = u6
        | .standby => u7 = u6
        | .active =>
          if ¬Available c.snapshot.imu ∨ r.speeds.vRef = none ∨ r.escalates = true then NoticeTaken .state 4 3 3 u6 u7 else u7 = u6
        | .limp =>
          if s.fcu.mode.recoveryFrames ≤ n ∧ s.fcu.escLatch = false ∧
              ¬(r.escalates = true ∧ s.fcu.mode.latchCount ≤ min 255 (s.fcu.escCount + 1)) then NoticeTaken .state 3 4 4 u6 u7
          else u7 = u6
        | .calibrating =>
          if c.calFrame = false then u7 = u6
          else if ¬(c.snapshot.imu.state = .live ∧ c.snapshot.front.state = .live ∧ c.snapshot.rear.state = .live) then
            CalFailedNotices 1 s.sc.calCount (s.sc.prior.getD .dormant) u6 u7
          else if 50 ≤ c.snapshot.front.unsigned 0 ∨ 50 ≤ c.snapshot.rear.unsigned 0 ∨ 500 ≤ (c.snapshot.imu.signed 0).natAbs ∨
              500 ≤ (c.snapshot.imu.signed 1).natAbs then
            CalFailedNotices 2 s.sc.calCount (s.sc.prior.getD .dormant) u6 u7
          else if s.sc.calCount + 1 < 256 then u7 = u6
          else if sums.az.tdiv 256 < 4904 then CalFailedNotices 3 (s.sc.calCount + 1) (s.sc.prior.getD .dormant) u6 u7
          else
            ∃ v, NoticeTaken .cal 0 (pack16 (toS16 (sums.roll.tdiv 256)) (toS16 (sums.yaw.tdiv 256)))
                (BitVec.ofInt 32 (initialLean (sums.ay.tdiv 256) (sums.az.tdiv 256))) u6 v ∧
              NoticeTaken .state (s.sc.thenTarget.getD .standby).code 1 5 v u7) ∧
      t.nw = u7.nw ∧ t.xp.summary.getLsbD 1 = u7.xp.summary.getLsbD 1 ∧
      ∀ a, a / 4 = 16 ∨ (960 ≤ a / 4 ∧ a / 4 < 1216) → t.ram.readByte a = u7.ram.readByte a

/-! ### The stages of a computation -/

/-- Stages 2 to 5 of a computation. The table's interpolation (R65): a breakpoint's value at a breakpoint, between breakpoints the
truncated straight line, which lies between its two ends, and P(13) at 6500. The arctangent table (R48): the ten points, the truncated
line between two of them, monotone, 6604 at the cap; a reference stays within 6,604,000 either way; and the initial lean of a
calibration's averages (R55). Stage 2: the corrected rates, saturated to 32,767 either way, 0 without an IMU (R41, R42). Stage 3: the
radius factors at the previous reported lean, the corrected speeds, the reference speed and its source (R80, R81). Stage 4: the band
(R45), its tangent (R46, R47), the prediction, the correction toward the reference and the clamp (R43, R44, R49, R50), the reported
lean (R51). Stage 5: the five envelope fields at the new reported lean and the active grade (R66, R98). -/
def Obligations.StagesTwoToFive : Prop :=
  (∀ (p : Nat → Nat) (m : Nat), m ≤ 6500 →
    (m = 6500 → interpolate p m = p 13) ∧
    (m % 500 = 0 → interpolate p m = p (m / 500)) ∧
    (m < 6500 →
      (interpolate p m : Int) = p (m / 500) + (((p (m / 500 + 1) : Int) - p (m / 500)) * (m % 500 : Nat)).tdiv 500 ∧
      min (p (m / 500)) (p (m / 500 + 1)) ≤ interpolate p m ∧ interpolate p m ≤ max (p (m / 500)) (p (m / 500 + 1)))) ∧
  ((∀ k, k ≤ 9 → angleOf (1024 * k) = [0, 1404, 2657, 3687, 4500, 5134, 5631, 6026, 6343, 6604].getD k 0) ∧
  (∀ k f, k < 9 → f < 1024 →
    angleOf (1024 * k + f) = angleOf (1024 * k) + (angleOf (1024 * (k + 1)) - angleOf (1024 * k)) * f / 1024) ∧
  (∀ a b, a ≤ b → b ≤ 9216 → angleOf a ≤ angleOf b) ∧
  (∀ (band : Band) (tau : Nat) (yaw ay : Int), tau ≤ 9216 → (refFine band tau yaw ay).natAbs ≤ 6604000) ∧
  ∀ ay az : Int, 0 < az → initialLean ay az = signOf ay * min 6500 (angleOf (min 9216 (ay.natAbs * 4096 / az.toNat)) : Nat)) ∧
  ∀ (c : Computation) (t : Table) (r : Results) (rate : Nat → Int → Int) (v : Nat) (az : Int), compute c t = r →
    (∀ k bias, rate k bias = max (-32767) (min 32767 ((c.snapshot.imu.slot.getD k 0).toInt - bias))) →
    v = r.speeds.vRef.getD 0 → az = (c.snapshot.imu.slot.getD 4 0).toInt →
    (r.rates.roll = (if Available c.snapshot.imu then rate 0 c.biasRoll else 0) ∧
      r.rates.yaw = (if Available c.snapshot.imu then rate 1 c.biasYaw else 0) ∧
      r.prevLean = c.leanPrev.tdiv 1000 ∧ r.newLean = r.lean.leanFine.tdiv 1000) ∧
    (r.speeds.kf = interpolate (fun b => (t.row b).front) r.prevLean.natAbs ∧
      r.speeds.kr = interpolate (fun b => (t.row b).rear) r.prevLean.natAbs ∧
      r.speeds.front = (if Available c.snapshot.front then some ((c.snapshot.front.slot.getD 0 0).toNat * r.speeds.kf / 32768)
        else none) ∧
      r.speeds.rear = (if Available c.snapshot.rear then some ((c.snapshot.rear.slot.getD 0 0).toNat * r.speeds.kr / 32768)
        else none) ∧
      (if Available c.snapshot.front then r.speeds.source = .front ∧ r.speeds.vRef = r.speeds.front
        else if Available c.snapshot.rear then r.speeds.source = .rear ∧ r.speeds.vRef = r.speeds.rear
        else r.speeds.source = .none ∧ r.speeds.vRef = none)) ∧
    (r.lean.band = (if ¬Available c.snapshot.imu ∨ r.speeds.vRef = none then .none
        else if c.mode.vKinMin ≤ v then .kinematic
        else if v < c.mode.vAccMax ∧ 4904 ≤ az then .gravity else .none) ∧
      (r.lean.tau : Int) = (match r.lean.band with
        | .none => 0
        | .kinematic => min 9216 (kinematicTangent r.rates.yaw v)
        | .gravity => min 9216 ((c.snapshot.imu.slot.getD 3 0).toInt.natAbs * 4096 / az)) ∧
      r.lean.leanFine = max (-6500000) (min 6500000 (leanUnclamped c r))) ∧
    r.activeGrade = max c.mode.modeGrade c.observer.observed ∧
    r.env = ⟨interpolate (fun b => (t.point b r.activeGrade).slipTarget) r.newLean.natAbs,
      interpolate (fun b => (t.point b r.activeGrade).torqueCeiling) r.newLean.natAbs,
      interpolate (fun b => (t.point b r.activeGrade).brakeCeiling) r.newLean.natAbs,
      interpolate (fun b => (t.point b r.activeGrade).frontShare) r.newLean.natAbs,
      interpolate (fun b => (t.point b r.activeGrade).trailerShare) r.newLean.natAbs⟩

/-- Stages 6 and 7 of a computation. The slip and its status (R83, R84); in ACTIVE the regulator step (R86, R87), R within 0..1024, and 0
outside ACTIVE (R88); trailer presence, the effective class and its factors (R105, R106); C is the scaled envelope torque less R, never
negative and never above 1024 (R90); D is the scaled envelope brake ceiling and never exceeds it, the front share is the envelope's
(R107); the trailer level is the share of the measured deceleration, limited by D, 0 unless the effective class is TRAILER and 0
without an IMU, never more than half of D (R108). -/
def Obligations.StagesSixAndSeven : Prop :=
  ∀ (c : Computation) (t : Table) (r : Results), TableInRange t → ModeInRange c.mode → FactorsInRange c.load.solo →
    FactorsInRange c.load.pillion → FactorsInRange c.load.pillionLuggage → FactorsInRange c.load.trailer →
    c.observer.observed ≤ 3 → compute c t = r →
    (match r.speeds.front, r.speeds.rear with
      | some f, some w =>
        if f < c.mode.slipVMin then r.slipStatus = .speedLow ∧ r.slip = 0
        else r.slipStatus = .computed ∧ r.slip = max (-999) (min 999 (slipQuotient f w))
      | _, _ => r.slipStatus = .absent ∧ r.slip = 0) ∧
      (c.stateAtStart = .active → (r.reduction : Int) = max 0 (min 1024
        (if r.slipStatus = .computed ∧ (r.env.slipTarget : Int) < r.slip then
          c.rPrev + ((r.slip - r.env.slipTarget) * c.mode.ki).tdiv 256 else c.rPrev - c.mode.rel))) ∧
      (r.present = true ↔ Available c.snapshot.trailer ∧ c.snapshot.trailer.slot.getD 0 0 = 1) ∧
      r.cls = (if r.present then .trailer else c.load.cls) ∧
      r.factors = (match r.cls with
        | .solo => c.load.solo | .pillion => c.load.pillion | .pillionLuggage => c.load.pillionLuggage
        | .trailer => c.load.trailer) ∧
      r.d = r.env.brakeCeiling * r.factors.bf / 256 ∧
      (r.level : Int) = (if r.cls = .trailer ∧ Available c.snapshot.imu then
        min (max (-(c.snapshot.imu.slot.getD 2 0).toInt) 0) r.d * r.env.trailerShare / 256 else 0) ∧
    r.reduction ≤ 1024 ∧ (c.stateAtStart ≠ .active → r.reduction = 0) ∧
      r.c = r.env.torqueCeiling * r.factors.tf / 256 - r.reduction ∧ r.c ≤ 1024 ∧
      r.d ≤ r.env.brakeCeiling ∧ 250 ≤ r.d ∧ r.d ≤ 12000 ∧
      (r.cls ≠ .trailer → r.level = 0) ∧ 2 * r.level ≤ r.d ∧ r.level ≤ 6000 ∧
      64 ≤ r.env.frontShare ∧ r.env.frontShare ≤ 230

/-- The grip observer, stage 8 of every computation (R99 to R102): it takes the adopted mode record, the state at start, R_prev, the R
that stage 6 of the same computation left, and its own three values, and nothing else of the computation; the values stay in their
ranges; held outside ACTIVE; in ACTIVE the bucket moved by the regulator, a bucket of 256 emptied into one observed grade more, and a
full quiet count restoring one grade. That R_prev is 0 in the first computation of every stay in ACTIVE (R99) is stated by FrameStart and
ControlStaysConsistent. -/
def Obligations.ObserverStep : Prop :=
  (∀ (c : Computation) (t : Table),
    (compute c t).observer = observe c.mode c.stateAtStart c.rPrev (compute c t).reduction c.observer) ∧
  ∀ (mode : ModeRecord) (start : OpState) (rPrev r : Nat) (o : Observer), ModeInRange mode → ObserverInRange o →
    ObserverInRange (observe mode start rPrev r o) ∧
    (start ≠ .active → observe mode start rPrev r o = o) ∧
    (start = .active → r ≠ 0 → rPrev = 0 → observe mode start rPrev r o =
      if 256 ≤ o.bucket + mode.episodeWeight then ⟨0, 0, min 3 (o.observed + 1)⟩
      else ⟨o.bucket + mode.episodeWeight, 0, o.observed⟩) ∧
    (start = .active → r ≠ 0 → rPrev ≠ 0 → observe mode start rPrev r o = ⟨o.bucket, 0, o.observed⟩) ∧
    (start = .active → r = 0 → 1 < o.bucket → observe mode start rPrev r o = ⟨o.bucket - 1, 0, o.observed⟩) ∧
    (start = .active → r = 0 → o.bucket ≤ 1 → observe mode start rPrev r o =
      if mode.restoreFrames ≤ min 65535 (o.quiet + 1) ∧ 0 < o.observed then ⟨0, 0, o.observed - 1⟩
      else ⟨0, min 65535 (o.quiet + 1), o.observed⟩)

/-- The eight cause bits of a computation that starts with none (R28) and its escalation (R30): each bit is set exactly when its
condition arose in its stage: the lean before its clamp beyond 6,500,000 either way (R50), the kinematic tangent beyond 9216 (R46), the
slip beyond 999 either way or the reference below slip_v_min with both wheels available (R83, R84), a raw rate at an end of its range
or a difference beyond 32,767 with an IMU (R41, R42), and R at 1024 in ACTIVE. And the eight verdicts (R31): each bit holds exactly
when its condition does. -/
def Obligations.CausesAndVerdicts : Prop :=
  (∀ (c : Computation) (t : Table) (r : Results), c.causes = 0 → compute c t = r →
    (r.causes.getLsbD 0 = true ↔ leanUnclamped c r < -6500000 ∨ 6500000 < leanUnclamped c r) ∧
    (r.causes.getLsbD 1 = true ↔ ∃ v, r.lean.band = .kinematic ∧ r.speeds.vRef = some v ∧
      9216 < kinematicTangent r.rates.yaw v) ∧
    (r.causes.getLsbD 2 = true ↔ ∃ f w, r.speeds.front = some f ∧ r.speeds.rear = some w ∧ c.mode.slipVMin ≤ f ∧
      999 < (slipQuotient f w).natAbs) ∧
    (r.causes.getLsbD 3 = true ↔ ∃ f w, r.speeds.front = some f ∧ r.speeds.rear = some w ∧ f < c.mode.slipVMin) ∧
    (r.causes.getLsbD 4 = true ↔ c.snapshot.imu.state = .held ∨ c.snapshot.front.state = .held ∨ c.snapshot.rear.state = .held ∨
      c.snapshot.engine.state = .held ∨ c.snapshot.trailer.state = .held) ∧
    (r.causes.getLsbD 5 = true ↔ (c.snapshot.imu.state = .lost ∨ c.snapshot.imu.state = .silent) ∨
      (c.snapshot.front.state = .lost ∨ c.snapshot.front.state = .silent) ∨
      (c.snapshot.rear.state = .lost ∨ c.snapshot.rear.state = .silent)) ∧
    (r.causes.getLsbD 6 = true ↔ c.stateAtStart = .active ∧ r.reduction = 1024) ∧
    (r.causes.getLsbD 7 = true ↔ Available c.snapshot.imu ∧
      ∃ raw bias : Int, (raw = (c.snapshot.imu.slot.getD 0 0).toInt ∧ bias = c.biasRoll ∨
          raw = (c.snapshot.imu.slot.getD 1 0).toInt ∧ bias = c.biasYaw) ∧
        (raw = 32767 ∨ raw = -32767 ∨ raw = -32768 ∨ 32767 < (raw - bias).natAbs)) ∧
    (r.escalates = true ↔ c.stateAtStart = .active ∧ r.causes &&& c.mode.escalationMask ≠ 0)) ∧
  (∀ (c : Computation) (t : Table) (r : Results), compute c t = r →
    (r.verdicts.getLsbD 0 = true ↔ c.mode.leanWarn ≤ r.newLean.natAbs) ∧
    (r.verdicts.getLsbD 1 = true ↔ 0 < r.reduction) ∧
    (r.verdicts.getLsbD 2 = true ↔ (c.snapshot.engine.state = .live ∨ c.snapshot.engine.state = .held) ∧
      r.c < (c.snapshot.engine.slot.getD 0 0).toNat) ∧
    (r.verdicts.getLsbD 3 = true ↔ (c.snapshot.imu.state = .live ∨ c.snapshot.imu.state = .held) ∧
      (r.d : Int) < -(c.snapshot.imu.slot.getD 2 0).toInt) ∧
    (r.verdicts.getLsbD 4 = true ↔ c.mode.modeGrade < r.observer.observed) ∧
    (r.verdicts.getLsbD 5 = true ↔
      (c.snapshot.imu.enable = true ∧ c.snapshot.imu.state ≠ .live) ∨
      (c.snapshot.front.enable = true ∧ c.snapshot.front.state ≠ .live) ∨
      (c.snapshot.rear.enable = true ∧ c.snapshot.rear.state ≠ .live) ∨
      (c.snapshot.engine.enable = true ∧ c.snapshot.engine.state ≠ .live) ∨
      (c.snapshot.trailer.enable = true ∧ c.snapshot.trailer.state ≠ .live)) ∧
    (r.verdicts.getLsbD 6 = true ↔ c.stateAtStart = .limp ∨ r.escalates = true) ∧
    (r.verdicts.getLsbD 7 = true ↔
      ¬((((c.snapshot.trailer.state = .live ∨ c.snapshot.trailer.state = .held) ∧
        c.snapshot.trailer.slot.getD 0 0 = 1)) ↔ c.load.cls = .trailer)))


/-! ### Requests -/

/-- A taken request whose kind code is 0 or above 8 completes at once with REFUSED_KIND, the kind code its detail (R163, R166), and
changes nothing else; on any other taken request, and with none taken, the row cannot arise and changes nothing
(notes/assumptions/2.md).
And a taken ADOPT, CLEAR, MODE_GO, ABANDON or CHANNEL whose parameters fail a check completes at once with REFUSED_RANGE and the
number of the first check that fails (R118, R148, R167, R168, R170), and changes nothing else. The scan going on within the same step is the model's (notes/assumptions/3.md, 4.md). -/
def Obligations.RequestRefusals : Prop :=
  ((∀ (s : State) (r : Request), s.rqe.execution = some ⟨r, .taken⟩ → s.ram.wf = true → r.slot < 16 →
    (r.kind = 0 ∨ 8 < r.kind.toNat) →
    ∃ t, exec .refusedKind s = .next t ∧ Completes r .refusedKind r.kind.toNat [] s t) ∧
  ∀ s : State, (∀ r, s.rqe.execution = some ⟨r, .taken⟩ → 1 ≤ r.kind.toNat ∧ r.kind.toNat ≤ 8) → exec .refusedKind s = .next s) ∧
  (∀ (s : State) (r : Request) (detail : Nat), s.rqe.execution = some ⟨r, .taken⟩ → s.ram.wf = true → r.slot < 16 →
    (((r.kind = 1 ∨ r.kind = 6) ∧ (if 15 < r.param1.toNat then detail = 1 else r.param1 = 0 ∧ detail = 2)) ∨
      (r.kind = 4 ∧ (if 3 < r.param1.toNat then detail = 1
        else r.param1 = 3 ∧ r.param2 ≠ 1 ∧ r.param2 ≠ 2 ∧ detail = 2)) ∨
      (r.kind = 5 ∧ 1 < r.param1.toNat ∧ detail = 1) ∨
      (r.kind = 7 ∧ (if r.param1.toNat = 0 ∨ 3 < r.param1.toNat then detail = 1 else 2 < r.param2.toNat ∧ detail = 2))) →
    ∃ t, exec .refusedRange s = .next t ∧ Completes r .refusedRange detail [] s t)

/-- An ADOPT that names neither the mode nor the load record is applied at its execution (R167, R15, R151): ADOPT_LANE and ADOPT_LINK
adopt every named record from the standing records and complete OK, or CLAMPED with a bit for each record with a clamped
field, the four counts in the payload.
An ADOPT that names the mode or the load record is a gap request (R25, R167): with a computation in flight it is held waiting
and nothing else changes; in the gap every named record is adopted at that moment, in the order of the mask's bits
(notes/assumptions/12.md), and it completes OK or CLAMPED with the four counts in the payload. That any one of the rows of the records
it names executes an ADOPT whole, and that the scan goes on within the same step, is the model's reading of
spec/95_what_each_step_holds.md (notes/assumptions/3.md, 4.md). Which bytes a record is read from: RecordsReadAndClamped. -/
def Obligations.Adopt : Prop :=
  (∀ (s : State) (r : Request), s.rqe.execution = some ⟨r, .taken⟩ → s.ram.wf = true → r.slot < 16 → r.kind = 1 →
    r.param1.toNat < 16 → r.param1.getLsbD 0 = false → r.param1.getLsbD 1 = false →
    ∃ u t,
      u = (let v := if r.param1.getLsbD 2 then adoptLanes s else s
        if r.param1.getLsbD 3 then { v with alc := v.alc.adopt (readLinkRecord v.ram).1 } else v) ∧
      (∀ lanes link : Nat,
        lanes = (if r.param1.getLsbD 2 then min 255 (laneClamps s) else 0) →
        link = (if r.param1.getLsbD 3 then min 255 (readLinkRecord s.ram).2 else 0) →
        Completes r (if lanes = 0 ∧ link = 0 then .ok else .clamped)
          ((if lanes = 0 then 0 else 4) + (if link = 0 then 0 else 8)) [pack8 0 0 (u8 lanes) (u8 link)] u t) ∧
      (r.param1.getLsbD 2 = true → exec .adoptLane s = .next t) ∧ (r.param1.getLsbD 3 = true → exec .adoptLink s = .next t)) ∧
  (∀ (s : State) (r : Request), s.rqe.execution = some ⟨r, .taken⟩ → s.ram.wf = true → r.slot < 16 → r.kind = 1 →
    r.param1.toNat < 16 → (r.param1.getLsbD 0 = true ∨ r.param1.getLsbD 1 = true) →
    ∃ t, (r.param1.getLsbD 0 = true → exec .adoptMode s = .next t) ∧ (r.param1.getLsbD 1 = true → exec .adoptLoad s = .next t) ∧
      (r.param1.getLsbD 2 = true → exec .adoptLane s = .next t) ∧ (r.param1.getLsbD 3 = true → exec .adoptLink s = .next t) ∧
      (s.fcu.inFlight.isSome = true → t = { s with rqe := { s.rqe with execution := some ⟨r, .waitingGap⟩ } }) ∧
      (s.fcu.inFlight = none → AdoptApplied r s t))

/-- The standing records as an ADOPT reads them (R184), what each field is clamped to, and how many fields a clamp changes (R167). The
mode record (R37, R53, R93, R104, R132, R175): every adopted field in its range, v_acc_max clamped against the clamped v_kin_min, and no
field counted exactly when every field is in range; the load record (R105); the link record, whose adoption gives the ALC its six fields and, on a FREE link at another rate, puts the
receiver in HUNT at once and discards a character or address byte in reception (R151, R136; for the address byte
notes/assumptions/15.md), no channel, transaction or count changed; and the lane record (R14), whose
adoption gives every lane its settings (LaneAdoption says how a lane takes them) and reports each change of lane state in the order
L0 to L4 (R12). -/
def Obligations.RecordsReadAndClamped : Prop :=
  (∀ (m : Memory) (a : Nat), m.u8At a = (m.readByte a).toNat ∧ m.u16At a = (m.readByte a).toNat + 256 * (m.readByte (a + 1)).toNat) ∧
  ((∀ m : Memory, rawMode m =
    ⟨m.u16At 0x100, m.readByte 0x102, m.u8At 0x103, m.u16At 0x104, m.u16At 0x106, m.u16At 0x108, m.u16At 0x10A, m.u16At 0x10C,
      m.u16At 0x10E, m.u16At 0x110, m.u8At 0x112, m.u16At 0x114, m.u16At 0x116, m.u16At 0x118, m.u16At 0x11A, m.u16At 0x11C,
      m.u16At 0x11E, m.u16At 0x120⟩) ∧
  (∀ w : RawMode, ModeInRange w.adopted ∧
    w.adopted = ⟨w.escalationMask, within 1 15 w.latchCount, within 1000 6500 w.leanWarn, min 4095 w.alpha,
      within 100 3000 w.vKinMin, min (within 100 3000 w.vKinMin) w.vAccMax, within 100 3000 w.slipVMin, within 1 4095 w.ki,
      within 1 255 w.rel, min 3 w.modeGrade, within 1 255 w.episodeWeight, within 100 65535 w.restoreFrames,
      within 1 65535 w.recoveryFrames, min 1024 w.fallbackTorque, within 500 12000 w.fallbackBrake,
      within 64 230 w.fallbackFrontShare, BitVec.ofNat 8 w.noticeMask⟩ ∧
    clampPeriod w.framePeriod = (if w.framePeriod ≤ 1 then 1 else if w.framePeriod = 2 then 2 else 4) ∧
    w.clamps = clampedFields [(w.framePeriod, clampPeriod w.framePeriod), (w.latchCount, w.adopted.latchCount),
      (w.leanWarn, w.adopted.leanWarn), (w.alpha, w.adopted.alpha), (w.vKinMin, w.adopted.vKinMin),
      (w.vAccMax, w.adopted.vAccMax), (w.slipVMin, w.adopted.slipVMin), (w.ki, w.adopted.ki), (w.rel, w.adopted.rel),
      (w.modeGrade, w.adopted.modeGrade), (w.episodeWeight, w.adopted.episodeWeight),
      (w.restoreFrames, w.adopted.restoreFrames), (w.recoveryFrames, w.adopted.recoveryFrames),
      (w.fallbackTorque, w.adopted.fallbackTorque), (w.fallbackBrake, w.adopted.fallbackBrake),
      (w.fallbackFrontShare, w.adopted.fallbackFrontShare), (w.noticeMask, w.noticeMask % 256)] ∧
    (w.clamps = 0 ↔ (w.framePeriod = 1 ∨ w.framePeriod = 2 ∨ w.framePeriod = 4) ∧ w.noticeMask < 256 ∧
      w.adopted = ⟨w.escalationMask, w.latchCount, w.leanWarn, w.alpha, w.vKinMin, w.vAccMax, w.slipVMin, w.ki, w.rel, w.modeGrade,
        w.episodeWeight, w.restoreFrames, w.recoveryFrames, w.fallbackTorque, w.fallbackBrake, w.fallbackFrontShare,
        u8 w.noticeMask⟩))) ∧
  (∀ (m : Memory) (f : Nat → ClassFactors),
    (∀ c, f c = ⟨within 128 256 (m.u16At (0x144 + 4 * c)), within 128 256 (m.u16At (0x146 + 4 * c))⟩) →
    (loadRecordOf m).cls.code = min 3 (m.u8At 0x140) ∧ (loadRecordOf m).solo = f 0 ∧ (loadRecordOf m).pillion = f 1 ∧
    (loadRecordOf m).pillionLuggage = f 2 ∧ (loadRecordOf m).trailer = f 3 ∧
    loadRecordClamps m = clampedFields ((m.u8At 0x140, min 3 (m.u8At 0x140)) ::
      (List.range 4).flatMap fun c => [(m.u16At (0x144 + 4 * c), (f c).tf), (m.u16At (0x146 + 4 * c), (f c).bf)])) ∧
  (∀ m : Memory, readLinkRecord m =
    (⟨min 2 (m.u8At 0x1A0), within 1 31 (m.u8At 0x1A1), within 1 15 (m.u8At 0x1A2), within 1 8 (m.u8At 0x1A3),
        within 1 8 (m.u8At 0x1A4), within 1 8 (m.u8At 0x1A5)⟩,
      clampedFields [(m.u8At 0x1A0, min 2 (m.u8At 0x1A0)), (m.u8At 0x1A1, within 1 31 (m.u8At 0x1A1)),
        (m.u8At 0x1A2, within 1 15 (m.u8At 0x1A2)), (m.u8At 0x1A3, within 1 8 (m.u8At 0x1A3)),
        (m.u8At 0x1A4, within 1 8 (m.u8At 0x1A4)), (m.u8At 0x1A5, within 1 8 (m.u8At 0x1A5))])) ∧
  (∀ (a : LinkController) (r : LinkRecord), a.adopt r =
    if a.link = .free ∧ a.record.rate ≠ r.rate then { a with record := r, rx := .hunt, address := none } else { a with record := r }) ∧
  ∀ s : State, LanesConsistent s.lanes →
    laneClamps s = clampedFields (([.imu, .front, .rear, .engine, .trailer] : List LaneId).flatMap fun l => laneFields s.ram l) ∧
    adoptLanes s =
      ([.imu, .front, .rear, .engine, .trailer] : List LaneId).foldl
        (fun u l => reportLane l (s.lanes.get l).state ((s.lanes.get l).adopt (laneSettingsIn s.ram l)).state u)
        { s with
          lanes := ⟨s.lanes.imu.adopt (laneSettingsIn s.ram .imu), s.lanes.front.adopt (laneSettingsIn s.ram .front),
            s.lanes.rear.adopt (laneSettingsIn s.ram .rear), s.lanes.engine.adopt (laneSettingsIn s.ram .engine),
            s.lanes.trailer.adopt (laneSettingsIn s.ram .trailer)⟩ }

/-- A waiting gap request is applied once no computation is in flight (R25), by its kind: ADOPT, CLEAR and TABLE_LOAD are applied as
wholes at that moment and complete with the codes, details and counts of R167, R168 and R72, a TABLE_DUMP begins to write, none of its
words written yet (notes/assumptions/5.md). That GAP_REQUEST_APPLY while a computation is in flight, or with none waiting, changes
nothing is the model's choice (2.md); so is the order in which one ADOPT's records are adopted (12.md). The scan going on within the same step is the model's (notes/assumptions/3.md, 4.md). -/
def Obligations.GapRequestApplied : Prop :=
  (∀ s : State, (s.fcu.inFlight.isSome = true ∨ ∀ r, s.rqe.execution ≠ some ⟨r, .waitingGap⟩) →
    exec .gapRequestApply s = .next s) ∧
  ∀ (s : State) (r : Request), s.rqe.execution = some ⟨r, .waitingGap⟩ → s.fcu.inFlight = none → s.ram.wf = true → r.slot < 16 →
    ∃ t, exec .gapRequestApply s = .next t ∧
      (r.kind = 1 → AdoptApplied r s t) ∧ (r.kind = 6 → ClearApplied r s t) ∧ (r.kind = 2 → LoadApplied r s t) ∧
      (r.kind = 3 → t = { s with rqe := { s.rqe with execution := some ⟨r, .dumping 0⟩ } })

/-- TABLE_LOAD (R67 to R72): the first failed parameter check refuses it at once with its number; a load that passes waits for
the gap, or in the gap is refused with the position of the first order violation or replaces the table whole, OK or CLAMPED with the
number of fields the clamp changed. The check finds no violation exactly when the candidate satisfies the order conditions of R64;
else its position is that of the first violated comparison in the order of R71, below 69 and never 55. The scan going on within the same step is the model's (notes/assumptions/3.md, 4.md). -/
def Obligations.TableLoad : Prop :=
  (∀ (s : State) (r : Request) (mask first last : Nat) (radius : Bool), s.rqe.execution = some ⟨r, .taken⟩ → s.ram.wf = true →
    r.slot < 16 → r.kind = 2 → mask = r.param1.toNat → first = (byteOf r.param2 0).toNat → last = (byteOf r.param2 1).toNat →
    radius = (byteOf r.param2 2 != 0) →
    ∃ t, exec .tableLoad s = .next t ∧
      if 15 < mask then Completes r .refusedRange 1 [] s t
      else if last < first then Completes r .refusedRange 2 [] s t
      else if 13 < last then Completes r .refusedRange 3 [] s t
      else if mask = 0 ∧ radius = false then Completes r .refusedRange 4 [] s t
      else if s.fcu.inFlight.isSome = true then t = { s with rqe := { s.rqe with execution := some ⟨r, .waitingGap⟩ } }
      else LoadApplied r s t) ∧
  (∀ t : Table, firstViolation t = none ↔ TableOrdered t) ∧
  (∀ (t : Table) (position : Nat), firstViolation t = some position ↔
    ∃ i, i < 214 ∧ (orderPair t i).1 = position ∧ (orderPair t i).2.1 < (orderPair t i).2.2 ∧
      ∀ j, j < i → ¬(orderPair t j).2.1 < (orderPair t j).2.2) ∧
  ∀ (t : Table) (position : Nat), firstViolation t = some position → position ≤ 68 ∧ position ≠ 55

/-- TABLE_DUMP (R75, R76): never refused; it waits for the gap or begins to write at once. When its last word is written, every image word
it had not written yet holds the table in use or zero, and the request completes OK; an earlier word is left as it stands, with the
dump's value or a host's later write. The table does not change. That none of its words is written when it begins is the model's
(notes/assumptions/5.md), and that TABLE_DUMP_DONE with no dump writing changes nothing is too (2.md). The scan going on within the same step is the model's (notes/assumptions/3.md, 4.md). -/
def Obligations.TableDump : Prop :=
  (∀ (s : State) (r : Request), s.rqe.execution = some ⟨r, .taken⟩ → r.kind = 3 →
    exec .tableDump s = .next { s with
      rqe := { s.rqe with
        execution := some ⟨r, if s.fcu.inFlight.isSome = true then .waitingGap else .dumping 0⟩ } }) ∧
  (∀ (s : State) (r : Request) (w : Nat), s.rqe.execution = some ⟨r, .dumping w⟩ → w ≤ 256 → s.ram.wf = true → r.slot < 16 →
    ∃ t m, exec .tableDumpDone s = .next t ∧
      Stored s.ram m (imageWord + w) ((List.range (256 - w)).map fun k => imageOf s.table (w + k)) ∧
      Completes r .ok 0 [] { s with ram := m } t) ∧
  (∀ s : State, (∀ r w, s.rqe.execution ≠ some ⟨r, .dumping w⟩) → exec .tableDumpDone s = .next s) ∧
  ∀ (t : Table) (i : Nat), i < 256 → imageOf t i =
    if i < 224 then
      (if i % 4 = 0 then pack16 (u16 (t.point (i / 16) (i / 4 % 4)).slipTarget) (u16 (t.point (i / 16) (i / 4 % 4)).torqueCeiling)
      else if i % 4 = 1 then
        pack16 (u16 (t.point (i / 16) (i / 4 % 4)).brakeCeiling) (u16 (t.point (i / 16) (i / 4 % 4)).frontShare)
      else if i % 4 = 2 then pack16 (u16 (t.point (i / 16) (i / 4 % 4)).trailerShare) 0
      else 0)
    else if i < 238 then pack16 (u16 (t.row (i - 224)).front) (u16 (t.row (i - 224)).rear)
    else 0

/-- MODE_GO with target DORMANT (R119 to R122, R127): always OK; a change of state is reported with reason MODE_GO; from CALIBRATING
the calibration ends first, its request CAL_FAILED with detail DORMANT and the frame count, a CAL notice before the STATE
notice; from LIMP the recovery count is set to 0.
MODE_GO with target STANDBY (R119 to R122): OK from STANDBY, ACTIVE and LIMP, and from DORMANT with calibration valid;
REFUSED_UNCALIBRATED from DORMANT without it; REFUSED_BUSY in CALIBRATING. A refusal changes nothing but the slot.
The scan going on within the same step is the model's (notes/assumptions/3.md, 4.md). -/
def Obligations.ModeGoDormantStandby : Prop :=
  (∀ (s : State) (r : Request), s.rqe.execution = some ⟨r, .taken⟩ → s.ram.wf = true → r.slot < 16 →
    (∀ e ∈ s.rqe.long, e.slot < 16) → r.kind = 4 → r.param1 = 0 →
    ∃ t, exec .modeGoDormant s = .next t ∧
      match s.sc.op with
      | .dormant => Completes r .ok 0 [] s t
      | .calibrating =>
        ∃ u v w, LongCompletes .calibration .calFailed 4 [u32 s.sc.calCount] s u ∧
          NoticeTaken .cal 4 (u32 s.sc.calCount) (u32 (s.sc.prior.getD .dormant).code) u v ∧
          NoticeTaken .state 0 1 1
            { v with sc := { s.sc with op := .dormant, calCount := 0, sums := ⟨0, 0, 0, 0⟩ } } w ∧
          Completes r .ok 0 [] w t
      | .standby => ∃ u, NoticeTaken .state 0 2 1 { s with sc := { s.sc with op := .dormant } } u ∧ Completes r .ok 0 [] u t
      | .active => ∃ u, NoticeTaken .state 0 3 1 { s with sc := { s.sc with op := .dormant } } u ∧ Completes r .ok 0 [] u t
      | .limp =>
        ∃ u, NoticeTaken .state 0 4 1 { s with sc := { s.sc with op := .dormant, recovery := 0 } } u ∧ Completes r .ok 0 [] u t) ∧
  (∀ (s : State) (r : Request), s.rqe.execution = some ⟨r, .taken⟩ → s.ram.wf = true → r.slot < 16 → r.kind = 4 → r.param1 = 1 →
    ∃ t, exec .modeGoStandby s = .next t ∧
      match s.sc.op with
      | .dormant =>
        if s.fcu.calValid then
          ∃ u, NoticeTaken .state 2 0 1 { s with sc := { s.sc with op := .standby } } u ∧ Completes r .ok 0 [] u t
        else Completes r .refusedUncalibrated 0 [] s t
      | .calibrating => Completes r .refusedBusy 0 [] s t
      | .standby => Completes r .ok 0 [] s t
      | .active => ∃ u, NoticeTaken .state 2 3 1 { s with sc := { s.sc with op := .standby } } u ∧ Completes r .ok 0 [] u t
      | .limp =>
        ∃ u, NoticeTaken .state 2 4 1 { s with sc := { s.sc with op := .standby, recovery := 0 } } u ∧ Completes r .ok 0 [] u t)

/-- MODE_GO with target ACTIVE (R119 to R122, R118, R30): an accepted one clears the escalation count and latch, whether or not it
changes the state; a change to ACTIVE is marked as the beginning of a stay (22.md); REFUSED_UNCALIBRATED from DORMANT without calibration, REFUSED_BUSY in CALIBRATING, and from LIMP
REFUSED_CONDITION with the facts of the last report that is not clean (with no report kept, a state no run reaches, detail 0:
notes/assumptions/11.md).
The scan going on within the same step is the model's (notes/assumptions/3.md, 4.md). -/
def Obligations.ModeGoActive : Prop :=
  ∀ (s : State) (r : Request) (cleared : State), s.rqe.execution = some ⟨r, .taken⟩ → s.ram.wf = true → r.slot < 16 →
    r.kind = 4 → r.param1 = 2 → cleared = { s with fcu := { s.fcu with escCount := 0, escLatch := false } } →
    ∃ t, exec .modeGoActive s = .next t ∧
      match s.sc.op with
      | .dormant =>
        if s.fcu.calValid then
          ∃ u, NoticeTaken .state 3 0 1 { cleared with sc := { s.sc with op := .active, activeEntered := true } } u ∧ Completes r .ok 0 [] u t
        else Completes r .refusedUncalibrated 0 [] s t
      | .calibrating => Completes r .refusedBusy 0 [] s t
      | .standby => ∃ u, NoticeTaken .state 3 2 1 { cleared with sc := { s.sc with op := .active, activeEntered := true } } u ∧ Completes r .ok 0 [] u t
      | .active => Completes r .ok 0 [] cleared t
      | .limp =>
        match s.sc.lastReport with
        | none => Completes r .refusedCondition 0 [] s t
        | some f =>
          if f = ⟨false, false, false, false⟩ then
            ∃ u, NoticeTaken .state 3 4 1 { cleared with sc := { s.sc with op := .active, recovery := 0, activeEntered := true } } u ∧
              Completes r .ok 0 [] u t
          else
            Completes r .refusedCondition
              ((if f.imuUnavailable then 1 else 0) + (if f.referenceUnavailable then 2 else 0) + (if f.maskedCause then 4 else 0))
              [] s t

/-- MODE_GO with target CALIBRATE (R119 to R123): REFUSED_BUSY in CALIBRATING, REFUSED_STATE in LIMP, in STANDBY and ACTIVE
REFUSED_MOVING by the last motion data (R120); otherwise the calibration begins: prior state and then-target recorded, count and
sums 0, CALIBRATING with its STATE notice, a computation in flight no frame of it (R124), the request left TAKEN.
The scan going on within the same step is the model's (notes/assumptions/3.md, 4.md). -/
def Obligations.ModeGoCalibrate : Prop :=
  ∀ (s : State) (r : Request) (target : OpState) (moving : Option Nat) (begun : State),
    s.rqe.execution = some ⟨r, .taken⟩ → s.ram.wf = true → r.slot < 16 → r.kind = 4 → r.param1 = 3 →
    (r.param2 = 1 ∧ target = .standby ∨ r.param2 = 2 ∧ target = .active) →
    moving = (match s.sc.lastMotion with
      | none => some 2
      | some d => if d.front ≠ .live ∨ d.rear ≠ .live then some 2 else if 50 ≤ d.vRef then some 1 else none) →
    begun = { s with
      sc := { s.sc with
        op := .calibrating, prior := some s.sc.op, thenTarget := some target, calCount := 0, sums := ⟨0, 0, 0, 0⟩ }
      fcu := { s.fcu with inFlight := s.fcu.inFlight.map fun c => { c with calFrame := false } } } →
    ∃ t, exec .modeGoCalibrate s = .next t ∧
      match s.sc.op with
      | .dormant => ∃ u, NoticeTaken .state 1 0 1 begun u ∧ StaysTaken r .calibration u t
      | .calibrating => Completes r .refusedBusy 0 [] s t
      | .limp => Completes r .refusedState 0 [] s t
      | .standby =>
        match moving with
        | some detail => Completes r .refusedMoving detail [] s t
        | none => ∃ u, NoticeTaken .state 1 2 1 begun u ∧ StaysTaken r .calibration u t
      | .active =>
        match moving with
        | some detail => Completes r .refusedMoving detail [] s t
        | none => ∃ u, NoticeTaken .state 1 3 1 begun u ∧ StaysTaken r .calibration u t

/-- ABANDON (R127, R170): of a transition, the calibration ends in its prior state with CAL_FAILED, detail ABANDONED and the frame
count, a CAL and then a STATE notice, a return to ACTIVE marked as the beginning of a stay (22.md); of a capture, the capture ends PARTIAL with its count and first frame number. Each then
completes OK itself; with nothing to abandon it completes REFUSED_STATE and changes nothing else.
The scan going on within the same step is the model's (notes/assumptions/3.md, 4.md). -/
def Obligations.Abandon : Prop :=
  ∀ (s : State) (r : Request), s.rqe.execution = some ⟨r, .taken⟩ → s.ram.wf = true → r.slot < 16 →
    (∀ e ∈ s.rqe.long, e.slot < 16) → r.kind = 5 →
    (r.param1 = 0 → ∃ t, exec .abandonTransition s = .next t ∧
      if s.sc.op = .calibrating then
        s.sc.prior = some .dormant ∨ s.sc.prior = some .standby ∨ s.sc.prior = some .active →
          ∃ u v w prior, s.sc.prior = some prior ∧ LongCompletes .calibration .calFailed 5 [u32 s.sc.calCount] s u ∧
            NoticeTaken .cal 5 (u32 s.sc.calCount) (u32 prior.code) u v ∧
            NoticeTaken .state prior.code 1 2
              { v with
                sc := { s.sc with
                  op := prior, calCount := 0, sums := ⟨0, 0, 0, 0⟩
                  activeEntered := if prior = .active then true else s.sc.activeEntered } } w ∧
            Completes r .ok 0 [] w t
      else Completes r .refusedState 0 [] s t) ∧
    (r.param1 = 1 → ∃ t, exec .abandonCapture s = .next t ∧
      match s.fcu.capture with
      | none => Completes r .refusedState 0 [] s t
      | some k =>
        ∃ u, LongCompletes .capture .partialCapture k.next [u32 k.next, k.first.getD 0]
            { s with fcu := { s.fcu with capture := none } } u ∧
          Completes r .ok 0 [] u t)

/-- CLEAR (R168, R29, R17, R152, R177): each named option cleared at one moment, and nothing it does not name; OK with detail 0. A CLEAR
that names the sticky option is a gap request (R25) and waits while a computation is in flight. That any one of the rows of the options
it names executes a CLEAR whole, and that the scan goes on within the same step, is the model's reading of
spec/95_what_each_step_holds.md (notes/assumptions/3.md, 4.md). -/
def Obligations.Clear : Prop :=
  ∀ (s : State) (r : Request), s.rqe.execution = some ⟨r, .taken⟩ → s.ram.wf = true → r.slot < 16 → r.kind = 6 →
    r.param1.toNat < 16 → r.param1 ≠ 0 →
    ∃ t, (r.param1.getLsbD 0 = true → exec .clearSticky s = .next t) ∧ (r.param1.getLsbD 1 = true → exec .clearLane s = .next t) ∧
      (r.param1.getLsbD 2 = true → exec .clearChannelCounts s = .next t) ∧
      (r.param1.getLsbD 3 = true → exec .clearNoticeHeader s = .next t) ∧
      if r.param1.getLsbD 0 = true ∧ s.fcu.inFlight.isSome = true then
        t = { s with rqe := { s.rqe with execution := some ⟨r, .waitingGap⟩ } }
      else ClearApplied r s t

/-- A CHANNEL STOP (R148): IDLE and PENDING become STOPPED and it completes OK; OUTSTANDING becomes STOPPING and it stays TAKEN; in
STOPPING it is REFUSED_BUSY, in STOPPED it is OK, with nothing changed. The pending slot is emptied, every other value kept.
A RESUME (R149): in STOPPED the channel becomes IDLE, all else kept, and it completes OK; in any other state it completes
REFUSED_STATE and nothing changes.
The scan going on within the same step is the model's (notes/assumptions/3.md, 4.md). -/
def Obligations.ChannelStopResume : Prop :=
  (∀ (s : State) (r : Request) (c : ChannelId), s.rqe.execution = some ⟨r, .taken⟩ → s.ram.wf = true → r.slot < 16 → r.kind = 7 →
    r.param1.toNat = c.station → r.param2 = 0 →
    ∃ t, exec .channelStop s = .next t ∧
      match (s.alc.get c).state with
      | .idle =>
        Completes r .ok 0 [] { s with alc := s.alc.set c { s.alc.get c with slot := none, state := .stopped } } t
      | .pending =>
        Completes r .ok 0 [] { s with alc := s.alc.set c { s.alc.get c with slot := none, state := .stopped } } t
      | .outstanding =>
        StaysTaken r (.stop c) { s with alc := s.alc.set c { s.alc.get c with slot := none, state := .stopping } } t
      | .stopping => Completes r .refusedBusy 0 [] s t
      | .stopped => Completes r .ok 0 [] s t) ∧
  (∀ (s : State) (r : Request) (c : ChannelId), s.rqe.execution = some ⟨r, .taken⟩ → s.ram.wf = true → r.slot < 16 → r.kind = 7 →
    r.param1.toNat = c.station → r.param2 = 1 →
    ∃ t, exec .channelResume s = .next t ∧
      if (s.alc.get c).state = .stopped then
        Completes r .ok 0 [] { s with alc := s.alc.set c { s.alc.get c with state := .idle } } t
      else Completes r .refusedState 0 [] s t)

/-- A CHANNEL RESTART (R150), in every state: the slot emptied; a transaction of the channel abandoned, an AWAITING link RESERVED;
toggle, health, misses, condition and served flag as at reset, the missed-service count kept, the channel IDLE; a RESTART notice;
a waiting STOP completed ABANDONED; then its own completion.
The scan going on within the same step is the model's (notes/assumptions/3.md, 4.md). -/
def Obligations.ChannelRestart : Prop :=
  ∀ (s : State) (r : Request) (c : ChannelId) (x : Channel) (a : LinkController),
    s.rqe.execution = some ⟨r, .taken⟩ → s.ram.wf = true → r.slot < 16 → (∀ e ∈ s.rqe.long, e.slot < 16) → r.kind = 7 →
    r.param1.toNat = c.station → r.param2 = 2 → x = s.alc.get c →
    a = (if x.state = .outstanding ∨ x.state = .stopping then
        { s.alc with
          outstanding := s.alc.outstanding.map fun t => { t with abandoned := true }
          link := if s.alc.link = .awaiting then .reserved else s.alc.link }
      else s.alc) →
    ∃ t u v, exec .channelRestart s = .next t ∧
      NoticeTaken .channel c.station 4 0
        { s with alc := a.set c ⟨.idle, none, false, .ok, 0, .none, x.missed, true⟩ } u ∧
      (if x.state = .stopping then LongCompletes (.stop c) .abandoned 0 [] u v else v = u) ∧ Completes r .ok 0 [] v t

/-- A CAPTURE (R169): a count outside 1 to 32 is REFUSED_RANGE with detail 1; another on the long-running list makes it
REFUSED_BUSY; otherwise the capture runs from entry 0 with no first frame number, not on a computation already in flight, and
the request stays TAKEN.
The scan going on within the same step is the model's (notes/assumptions/3.md, 4.md). -/
def Obligations.CaptureRequest : Prop :=
  ∀ (s : State) (r : Request), s.rqe.execution = some ⟨r, .taken⟩ → s.ram.wf = true → r.slot < 16 → r.kind = 8 →
    ∃ t, exec .capture s = .next t ∧
      if r.param1 = 0 ∨ 32 < r.param1.toNat then Completes r .refusedRange 1 [] s t
      else if ∃ e ∈ s.rqe.long, e.owner = .capture then Completes r .refusedBusy 0 [] s t
      else
        StaysTaken r .capture
          { s with fcu := { s.fcu with capture := some ⟨r.slot, r.param1.toNat, 0, none, s.fcu.inFlight.isSome⟩ } } t

/-! ### The actuator link -/

/-- A grant (R142): on a FREE link the PENDING channel first in the order BRAKE, ENGINE, TRAILER gives up its message, becomes
OUTSTANDING, and the message goes out with the channel's toggle and its check, its characters driven onto the line in the order of its
bytes (R136; MessageLayout has a character's ten bits), rate code and multiplier recorded; the receiver is turned off (R136). That the arbiter consulted when the link becomes FREE grants by this row, a step of its own, is the model's
(notes/assumptions/24.md).
The end of sending (R143): the line released, the receiver on in HUNT, the reply window of 8 µs times the recorded multiplier
begun; AWAITING, or RESERVED for an abandoned transaction. That LINK_GRANT with the link in use or no channel PENDING, and
MESSAGE_SENT on a link that is not SENDING, change nothing is the model's choice (notes/assumptions/2.md). -/
def Obligations.GrantAndSend : Prop :=
  ((∀ s : State, (s.alc.link ≠ .free ∨ ∀ c, (s.alc.get c).state ≠ .pending) → exec .linkGrant s = .next s) ∧
  ∀ (s : State) (c : ChannelId) (msg : Message), s.alc.link = .free → (s.alc.get c).state = .pending → (s.alc.get c).slot = some msg →
    (c = .engine → s.alc.brake.state ≠ .pending) →
    (c = .trailer → s.alc.brake.state ≠ .pending ∧ s.alc.engine.state ≠ .pending) →
    exec .linkGrant s = .next { s with
      alc := { s.alc.set c { s.alc.get c with slot := none, state := .outstanding } with
        link := .sending
        outstanding := some {
          channel := c, message := msg, toggle := (s.alc.get c).toggle
          bytes := messageBytes c (s.alc.get c).toggle msg
          rate := s.alc.record.rate, multiplier := s.alc.record.multiplier, window := none, abandoned := false }
        rx := .off
        address := none
        driven := (messageBytes c (s.alc.get c).toggle msg).map characterOf } }) ∧
  ((∀ s : State, s.alc.link ≠ .sending → exec .messageSent s = .next s) ∧
  ∀ (s : State) (tr : Transaction), s.alc.link = .sending → s.alc.outstanding = some tr →
    exec .messageSent s = .next { s with
      alc := { s.alc with
        link := if tr.abandoned then .reserved else .awaiting
        outstanding := some { tr with window := some (8 * tr.multiplier) }
        rx := .hunt
        address := none
        driven := [] } })

/-- The eight bytes of a message (R137, R138, R191, R192): station in bits 1:0 of the address byte, toggle in bit 2, source in bits
4:3, bits 7:5 zero; the frame number's low half, low byte first; the payload: the ceiling or level low byte first in bytes 3 and 4, the
front share in byte 5 for BRAKE, every unused byte 0; the check over the first seven; and the check of R192's example. The check of
any bytes (R138): the register starts at 0xFF; each byte in the order sent is added by exclusive-or, then the register is shifted
eight times toward its most significant bit, combined with 0x07 at each shift where the bit shifted out is 1; no final inversion.
A character (R136): bit time 0 the start bit, low, bit times 1 to 8 the byte's bits, least significant first, bit time 9 the stop bit,
high; read back as a received character is, it gives the byte.
And what the other statements name by the model's own names, as numbers: the codes (R182, R116, R105, R146, R137, R175, R166, R187); the
byte addresses of the notice header, the live page, the table image, the request slots, the notices and the capture entries, the
host's read count and a slot's mark (R183, R187); bits 7:6 of the lane error flags at 0, the model's choice (notes/assumptions/25.md); a word from its bytes and halves, lowest address first. -/
def Obligations.MessageLayout : Prop :=
  crc8 [0x06] = 0xE1 ∧ crc8 [] = 0xFF ∧
  (∀ (bytes : List Byte) (b : Byte), ∃ register : Nat → Byte,
    register 0 = crc8 bytes ^^^ b ∧ crc8 (bytes ++ [b]) = register 8 ∧
      ∀ k, k < 8 → register (k + 1) =
        if (register k).getLsbD 7 = true then (register k <<< 1) ^^^ 0x07 else register k <<< 1) ∧
  (∀ (c : ChannelId) (toggle : Bool) (msg : Message),
    (messageBytes c toggle msg).length = 8 ∧
    (((messageBytes c toggle msg).getD 0 0).extractLsb' 0 2).toNat = c.station ∧
    ((messageBytes c toggle msg).getD 0 0).getLsbD 2 = toggle ∧
    (((messageBytes c toggle msg).getD 0 0).extractLsb' 3 2).toNat = msg.source.code ∧
    ((messageBytes c toggle msg).getD 0 0).extractLsb' 5 3 = 0 ∧
    (messageBytes c toggle msg).getD 1 0 = msg.frame.extractLsb' 0 8 ∧
    (messageBytes c toggle msg).getD 2 0 = msg.frame.extractLsb' 8 8 ∧
    [(messageBytes c toggle msg).getD 3 0, (messageBytes c toggle msg).getD 4 0, (messageBytes c toggle msg).getD 5 0,
        (messageBytes c toggle msg).getD 6 0] =
      (match msg.payload with
        | .torque ceiling => [BitVec.ofNat 8 ceiling, BitVec.ofNat 8 (ceiling / 256), 0, 0]
        | .brake ceiling share => [BitVec.ofNat 8 ceiling, BitVec.ofNat 8 (ceiling / 256), BitVec.ofNat 8 share, 0]
        | .trailer level => [BitVec.ofNat 8 level, BitVec.ofNat 8 (level / 256), 0, 0]) ∧
    (messageBytes c toggle msg).getD 7 0 = crc8 ((messageBytes c toggle msg).take 7)) ∧
  (∀ b : Byte, (characterOf b).getLsbD 0 = false ∧ (∀ i, i < 8 → (characterOf b).getLsbD (1 + i) = b.getLsbD i) ∧
    (characterOf b).getLsbD 9 = true ∧ (characterOf b).extractLsb' 1 8 = b) ∧
  (([.dormant, .calibrating, .standby, .active, .limp] : List OpState).map OpState.code = [0, 1, 2, 3, 4] ∧
    ([.silent, .live, .held, .lost] : List LaneState).map LaneState.code = [0, 1, 2, 3] ∧
    ([.imu, .front, .rear, .engine, .trailer] : List LaneId).map laneIndex = [0, 1, 2, 3, 4] ∧
    ([.none, .front, .rear] : List RefSource).map RefSource.code = [0, 1, 2] ∧
    ([.absent, .computed, .speedLow] : List SlipStatus).map SlipStatus.code = [0, 1, 2] ∧
    ([.none, .kinematic, .gravity] : List Band).map Band.code = [0, 1, 2] ∧
    ([.solo, .pillion, .pillionLuggage, .trailer] : List LoadClass).map LoadClass.code = [0, 1, 2, 3] ∧
    ([.idle, .pending, .outstanding, .stopping, .stopped] : List ChannelState).map ChannelState.code = [0, 1, 2, 3, 4] ∧
    ([.ok, .missing, .lost] : List Health).map Health.code = [0, 1, 2] ∧
    ([.none, .good, .goodClamped, .stationFault, .badCheck, .sequence, .timeout] : List Condition).map Condition.code =
      [0, 1, 2, 3, 4, 5, 6] ∧
    ([.none, .computed, .fallback] : List Source).map Source.code = [0, 1, 2] ∧
    ([.engine, .brake, .trailer] : List ChannelId).map ChannelId.station = [1, 2, 3] ∧
    ([.state, .verdict, .lane, .channel, .missedService, .escalation, .grade, .cal] : List NoticeKind).map NoticeKind.code =
      [1, 2, 3, 4, 5, 6, 7, 8] ∧
    ([.ok, .clamped, .partialCapture, .refusedKind, .refusedRange, .refusedOrder, .refusedState, .refusedBusy, .refusedMoving,
        .refusedCondition, .refusedUncalibrated, .calFailed, .abandoned, .reset] : List ResultCode).map ResultCode.code =
      [0, 1, 2, 16, 17, 18, 19, 20, 21, 22, 23, 32, 33, 34] ∧
    (markPosted = 1 ∧ markTaken = 2 ∧ markDone = 3) ∧
    ∀ f : LaneFlags, (List.range 8).map f.toByte.getLsbD =
      [f.parity, f.frame, f.short, f.tag, f.stray, f.implausible, false, false]) ∧
  (4 * headerWord = 0x0040 ∧ 4 * pageWord = 0x0200 ∧ 4 * imageWord = 0x0300 ∧ (∀ k, 4 * slotWord k = 0x0700 + 128 * k) ∧
    (∀ p, 4 * noticeWord p = 0x0F00 + 16 * p) ∧ (∀ k, 4 * captureWord k = 0x1300 + 64 * k) ∧
    ∀ m : Memory, readCountOf m = m.readByte 0x0045 ++ m.readByte 0x0044 ∧
      (∀ k, k < 16 → slotMark m k = m.readByte (0x0700 + 128 * k)) ∧
      ∀ w : NoticeWriter, occupancy m w = (w.writeCount - readCountOf m).toNat) ∧
  ∀ (b0 b1 b2 b3 : Byte) (lo hi : Half),
    pack8 b0 b1 b2 b3 = b3 ++ b2 ++ b1 ++ b0 ∧ pack16 lo hi = hi ++ lo ∧ firstWord b0 b1 hi = hi ++ b1 ++ b0

/-- The link receiver's own events (R136, R144): 160 high samples end IDLE_WAIT, a falling edge in HUNT starts RECEIVE, a start bit
decided high returns to HUNT, 20 idle bit times discard a held address byte, a good character with none held is held as one, and
a bad character discards it and sends the receiver to IDLE_WAIT. Nothing else changes. That in any other receiver state, and for a good
character that meets a held address byte (whose row is ACK_ARRIVAL), nothing changes is the model's choice (notes/assumptions/2.md). -/
def Obligations.LinkReceiverEvents : Prop :=
  (∀ (run : Nat) (s : State), 160 ≤ run → exec (.linkIdleDetected run) s =
    .next (if s.alc.rx = .idleWait then { s with alc := { s.alc with rx := .hunt } } else s)) ∧
  (∀ s : State, exec (.linkStartEdge true false) s =
    .next (if s.alc.rx = .hunt then { s with alc := { s.alc with rx := .receive } } else s)) ∧
  (∀ (s7 s8 s9 : Bool) (s : State), 2 ≤ bitOf s7 + bitOf s8 + bitOf s9 → exec (.linkFalseStart s7 s8 s9) s =
    .next (if s.alc.rx = .receive then { s with alc := { s.alc with rx := .hunt } } else s)) ∧
  (∀ (idle : Nat) (s : State), 20 ≤ idle → exec (.ackAddressDiscard idle) s =
    .next (if s.alc.rx = .hunt then { s with alc := { s.alc with address := none } } else s)) ∧
  ∀ (s7 s8 s9 c : BitVec 10) (s : State), majority s7 s8 s9 = c → c.getLsbD 0 = false →
    exec (.linkCharacterArrival s7 s8 s9) s =
      .next (if s.alc.rx = .receive then
          if c.getLsbD 9 = false then { s with alc := { s.alc with rx := .idleWait, address := none } }
          else if s.alc.address = none then { s with alc := { s.alc with rx := .hunt, address := some (c.extractLsb' 1 8) } }
          else s
        else s)

/-- An acknowledgement that is not judged for a transaction (R144, R147, R150): on a FREE link a stray, counted and nothing more; in
AWAITING a valid one from another station, a stray with the transaction left awaiting; on a RESERVED link discarded, the
reservation ended. The model's, not the spec's: that the link then stands FREE with no grant in the same step, the arbiter's
consultation coming as the row LINK_GRANT (notes/assumptions/24.md), and that ACK_ARRIVAL with no address byte held, or with the
receiver not in RECEIVE, changes nothing (notes/assumptions/2.md). -/
def Obligations.AckUnjudged : Prop :=
  ∀ (s7 s8 s9 c : BitVec 10) (s : State), majority s7 s8 s9 = c → c.getLsbD 0 = false → c.getLsbD 9 = true →
    ((s.alc.rx ≠ .receive ∨ s.alc.address = none) → exec (.ackArrival s7 s8 s9) s = .next s) ∧
    ∀ address, s.alc.rx = .receive → s.alc.address = some address →
      (s.alc.link = .free → exec (.ackArrival s7 s8 s9) s =
        .next { s with alc := { s.alc with rx := .hunt, address := none, stray := min 255 (s.alc.stray + 1) } }) ∧
      (∀ tr, s.alc.link = .awaiting → s.alc.outstanding = some tr → c.extractLsb' 1 8 = crc8 [address] →
        (address.extractLsb' 0 2).toNat ≠ tr.channel.station → exec (.ackArrival s7 s8 s9) s =
          .next { s with alc := { s.alc with rx := .hunt, address := none, stray := min 255 (s.alc.stray + 1) } }) ∧
      (s.alc.link = .reserved → exec (.ackArrival s7 s8 s9) s =
        .next { s with alc := { s.alc with rx := .hunt, address := none, link := .free, outstanding := none } })

/-- An acknowledgement judged in AWAITING (R144 to R146): an invalid check ends the transaction BAD_CHECK; the right station with the
other toggle ends it SEQUENCE; the right station and toggle end it good, by the status, 3 counting as STATION_FAULT. The model's,
not the spec's: each ending leaves the link FREE with no grant in the same step, a PENDING channel as it was, since the consultation
of the arbiter when the link becomes FREE (R145 step 6, R142) comes as the row LINK_GRANT (notes/assumptions/24.md). -/
def Obligations.AckJudged : Prop :=
  ∀ (s7 s8 s9 c : BitVec 10) (s u : State) (tr : Transaction) (address : Byte), majority s7 s8 s9 = c → c.getLsbD 0 = false →
    c.getLsbD 9 = true → s.alc.rx = .receive → s.alc.address = some address → s.alc.link = .awaiting →
    s.alc.outstanding = some tr → s.ram.wf = true → (∀ e ∈ s.rqe.long, e.slot < 16) →
    u = { s with alc := { s.alc with rx := .hunt, address := none } } →
    (c.extractLsb' 1 8 ≠ crc8 [address] → ∃ t, exec (.ackArrival s7 s8 s9) s = .next t ∧ EndsMissed tr.channel tr .badCheck u t) ∧
    (c.extractLsb' 1 8 = crc8 [address] → (address.extractLsb' 0 2).toNat = tr.channel.station →
      ∃ t, exec (.ackArrival s7 s8 s9) s = .next t ∧
        if address.getLsbD 2 = tr.toggle then
          EndsGood tr.channel tr
            (match (address.extractLsb' 3 2).toNat with
              | 0 => .good
              | 1 => .goodClamped
              | _ => .stationFault) u t
        else EndsMissed tr.channel tr .sequence u t)

/-- The expiry of the reply timeout (R146, R150, R144): in AWAITING the transaction ends TIMEOUT, a miss; a reservation ends and the
link is FREE, no condition recorded; on a FREE link there is no transaction and nothing changes. The model's, not the spec's: that both
endings leave the link FREE with no grant in the same step, the arbiter's consultation (R142, R145 step 6) coming as the row
LINK_GRANT (notes/assumptions/24.md); that the row changes nothing while the link is SENDING, when no window runs
(notes/assumptions/2.md); and that a held address byte is dropped where the link becomes FREE at another adopted rate
(notes/assumptions/15.md). -/
def Obligations.ReplyTimeout : Prop :=
  (∀ (s : State) (tr : Transaction), s.alc.link = .awaiting → s.alc.outstanding = some tr → s.ram.wf = true →
    (∀ e ∈ s.rqe.long, e.slot < 16) → ∃ t, exec .replyTimeout s = .next t ∧ EndsMissed tr.channel tr .timeout s t) ∧
  (∀ (s : State) (tr : Transaction), s.alc.link = .reserved → s.alc.outstanding = some tr →
    exec .replyTimeout s = .next { s with alc := linkFreed s.alc tr }) ∧
  ∀ s : State, (s.alc.link = .free ∨ s.alc.link = .sending) → exec .replyTimeout s = .next s

/-- A due deposit that meets a full slot supersedes the message there (R141): the new message whole, the missed-service count up by one,
saturating at 65535; with the served-since-miss flag set a MISSED_SERVICE notice with the station, the count and the superseded
message's full frame number, and the flag cleared. State, toggle, health, misses and the transaction in flight are kept. -/
def Obligations.MissedService : Prop :=
  ∀ (s : State) (c : ChannelId) (old msg : Message), s.ram.wf = true → msg.frame.toNat % s.alc.record.interval c = 0 →
    ((s.alc.get c).state = .pending ∨ (s.alc.get c).state = .outstanding) → (s.alc.get c).slot = some old →
    ∃ u, u = { s with
        alc := s.alc.set c
          { s.alc.get c with slot := some msg, missed := min 65535 ((s.alc.get c).missed + 1), served := false } } ∧
      if (s.alc.get c).served then
        NoticeTaken .missedService c.station (u32 (min 65535 ((s.alc.get c).missed + 1))) old.frame u (deposit c msg s)
      else deposit c msg s = u

/-- The notice list never overwrites an unread record (R176): from an occupancy of at most 64, an offered notice leaves it at most
64, and every unread record as it was. -/
def Obligations.UnreadNoticesKept : Prop :=
  ∀ (kind : NoticeKind) (subject : Nat) (first second : Word) (s : State), s.ram.wf = true → occupancy s.ram s.nw ≤ 64 →
    occupancy (offerNotice kind subject first second s).ram (offerNotice kind subject first second s).nw ≤ 64 ∧
    ∀ d k, d < occupancy s.ram s.nw → k < 4 →
      (offerNotice kind subject first second s).ram.readWord (noticeWord ((readCountOf s.ram + BitVec.ofNat 16 d).toNat % 64) + k)
        = s.ram.readWord (noticeWord ((readCountOf s.ram + BitVec.ofNat 16 d).toNat % 64) + k)

/-! ### What every step keeps -/

/-- The Exchange RAM keeps its canonical form through every step: whatever the command, an address reads as one byte and equal
memories are equal data (R155; the form is the model's own). -/
def Obligations.MemoryStaysCanonical : Prop := ∀ s t : State, s.ram.wf = true → step s = .next t → t.ram.wf = true

/-- ALERT is asserted while at least one bit is set in both SUMMARY and SUMMARY_ENABLE and released while none is, through every
step and right after reset; after either reset no enable is set, so ALERT is released although RESET_DONE is set; and the enables
change only by a reset or by the host's write of them, which sets them to what it writes (R158). -/
def Obligations.AlertFollowsSummary : Prop :=
  AlertFollows State.reset ∧ State.reset.xp.alert = false ∧ State.reset.xp.enable = 0 ∧
    (∀ s t : State, AlertFollows s → step s = .next t → AlertFollows t) ∧
    (∀ s t : State, step s = .next t → t.xp.enable = s.xp.enable ∨
      ∃ (c : Instr) (rest : List Instr), s.pending = c :: rest ∧
        (c = .powerOnReset ∨ (∃ v : Word, v.getLsbD 0 = true ∧ c = .softReset v) ∨
          ∃ v : Word, c = .summaryEnableWrite v ∧ t.xp.enable = v.setWidth 7)) ∧
    ∀ s t : State, step s = .next t →
      (∃ rest, s.pending = .powerOnReset :: rest ∨ ∃ v : Word, v.getLsbD 0 = true ∧ s.pending = .softReset v :: rest) →
      t.xp.alert = false ∧ t.xp.enable = 0 ∧ t.xp.summary = 0x40

/-- The envelope table in use satisfies the order conditions in every state (R64): after reset, and through every step; and by
them an interpolated torque or brake ceiling never rises with the lean magnitude at one grade, nor with the grade number at one
lean magnitude. -/
def Obligations.TableOrderLaw : Prop :=
  TableOrdered State.reset.table ∧
  (∀ s t : State, TableOrdered s.table → step s = .next t → TableOrdered t.table) ∧
  (∀ (t : Table) (g m m' : Nat), TableOrdered t → g ≤ 3 → m ≤ m' → m' ≤ 6500 →
    (envelopeAt t m' g).torqueCeiling ≤ (envelopeAt t m g).torqueCeiling ∧
    (envelopeAt t m' g).brakeCeiling ≤ (envelopeAt t m g).brakeCeiling) ∧
  ∀ (t : Table) (g g' m : Nat), TableOrdered t → g ≤ g' → g' ≤ 3 → m ≤ 6500 →
    (envelopeAt t m g').torqueCeiling ≤ (envelopeAt t m g).torqueCeiling ∧
    (envelopeAt t m g').brakeCeiling ≤ (envelopeAt t m g).brakeCeiling

/-- The values the FCU carries stay in their ranges through every step (R50, R85, R99, R101, R30, R60, R61): lean within ±6,500,000, R
within 0..1024, the observer within its ranges, every field of the table within its own. -/
def Obligations.UnitStaysInRange : Prop :=
  ∀ s t : State, UnitInRange s.fcu → TableInRange s.table → step s = .next t → UnitInRange t.fcu ∧ TableInRange t.table

/-- The operating state and the calibration agree through every step (R115, R123, R124, R128, R131): in particular the state is ACTIVE or
LIMP only while calibration is valid, and LIMP is entered only from ACTIVE. And the first computation of every stay in ACTIVE has R_prev =
0 (R88, R99, R126): every step that enters ACTIVE sets the mark of a stay that begins, and the mark stands until a reset or until
the next computation begins, whose R_prev is 0 if it begins in ACTIVE. The mark is the model's own field, and that these rules go before
R85's words where they differ is its choice (notes/assumptions/22.md). -/
def Obligations.ControlStaysConsistent : Prop :=
  ∀ s t : State, step s = .next t →
    (ControlConsistent s.sc s.fcu.calValid →
      ControlConsistent t.sc t.fcu.calValid ∧ (t.sc.op = .limp → s.sc.op = .limp ∨ s.sc.op = .active)) ∧
    (s.sc.op ≠ .active → t.sc.op = .active → t.sc.activeEntered = true) ∧
    (s.sc.activeEntered = true →
      t.sc.activeEntered = true ∨
      (∃ rest, s.pending = .powerOnReset :: rest) ∨ (∃ v rest, v.getLsbD 0 = true ∧ s.pending = .softReset v :: rest) ∨
      ((∃ rest, s.pending = .frameStart :: rest) ∧ s.fcu.inFlight = none ∧
        ∃ c, t.fcu.inFlight = some c ∧ c.stateAtStart = s.sc.op ∧ (c.stateAtStart = .active → c.rPrev = 0)))

/-- Every lane context agrees with its settings through every step (R11, R16, R5, R9, R14): a disabled lane is SILENT with its
receiver stopped, a lane that is not SILENT is LIVE, HELD or LOST by its age, an open burst is never complete. -/
def Obligations.LanesStayConsistent : Prop :=
  ∀ s t : State, LanesConsistent s.lanes → step s = .next t → LanesConsistent t.lanes

/-- The link, its transaction and the channels agree through every step (R139, R142, R143, R150): at most one transaction, its
channel in OUTSTANDING or STOPPING unless it is abandoned, slots full only in PENDING and OUTSTANDING, and the line driven with the
transaction's characters exactly while SENDING (R136). -/
def Obligations.LinkStaysConsistent : Prop :=
  ∀ s t : State, LinkConsistent s.alc → step s = .next t → LinkConsistent t.alc

/-- The long-running list matches its owners through every step (R164): at most one MODE_GO, while a calibration runs; at most one
CAPTURE, while a capture runs; at most one STOP for each channel, while it is STOPPING. The running capture stays between its
bounds (R169, R179). -/
def Obligations.LongListStaysMatched : Prop :=
  ∀ s t : State, LongListMatches s → ControlConsistent s.sc s.fcu.calValid →
    (∀ k, s.fcu.capture = some k → CaptureConsistent k) → step s = .next t →
    LongListMatches t ∧ ∀ k, t.fcu.capture = some k → CaptureConsistent k

/-- The Request Engine stays consistent through every step (R161, R163): a scan stands exactly while a request is in execution, no
rescan is pending without a scan, every slot number is one of sixteen. That a scan never stands at a position with no request in
execution is the model's, whose scan runs uninterrupted to its next take or its end within a step (notes/assumptions/3.md, 4.md); R161
lets one stand there. -/
def Obligations.EngineStaysConsistent : Prop :=
  ∀ s t : State, EngineConsistent s.rqe → step s = .next t → EngineConsistent t.rqe

/-- The adopted mode, load, lane and link records and the frame period stay within their ranges through every step (R37, R53, R93, R104,
R105, R132, R14, R151). The TRAILER lane holds its reset values, E 50 among them, until its first adoption (R14's note). -/
def Obligations.RecordsStayInRange : Prop := ∀ s t : State, RecordsInRange s → step s = .next t → RecordsInRange t

/-- The state after reset is safe: every invariant holds of it. -/
def Obligations.ResetIsSafe : Prop := Safe State.reset

end
end

