-- ==== Sys2Proof/Laws/Memory.lean ====
section
/-! SUPPORT. The laws of the Exchange RAM: a read after a write gives the value written, a write leaves every other place alone,
and every operation keeps the canonical form. -/

namespace Sys2Proof.Machine

theorem Memory.wfFrom_cons {low a : Nat} {v : Byte} {rest : Memory} :
    Memory.wfFrom low ((a, v) :: rest) = true ↔
      low ≤ a ∧ a < 4 * Config.ramWords ∧ v ≠ 0 ∧ Memory.wfFrom (a + 1) rest = true := by
  simp [Memory.wfFrom, and_assoc]

/-- A canonical memory that begins at `low` also begins at any lower address. -/
theorem Memory.wfFrom_mono {low low' : Nat} (h : low' ≤ low) : ∀ {m : Memory}, m.wfFrom low = true → m.wfFrom low' = true
  | [], _ => rfl
  | (a, v) :: rest, hm => by
    rw [Memory.wfFrom_cons] at hm ⊢
    exact ⟨by omega, hm.2⟩

/-- Nothing is listed below the start of a canonical memory. -/
theorem Memory.readByte_below : ∀ {m : Memory} {low a : Nat}, m.wfFrom low = true → a < low → m.readByte a = 0
  | [], _, _, _, _ => rfl
  | (b, w) :: rest, low, a, hm, ha => by
    rw [Memory.wfFrom_cons] at hm
    have : a ≠ b := by omega
    simp only [Memory.readByte, this, if_false]
    exact Memory.readByte_below hm.2.2.2 (by omega)

/-- A byte write keeps the canonical form. -/
theorem Memory.writeByte_wfFrom (v : Byte) {a : Nat} (ha : a < 4 * Config.ramWords) :
    ∀ {m : Memory} {low : Nat}, low ≤ a → m.wfFrom low = true → (m.writeByte a v).wfFrom low = true
  | [], low, hl, _ => by
    unfold Memory.writeByte
    split
    · rfl
    · rename_i hv
      exact Memory.wfFrom_cons.mpr ⟨hl, ha, hv, rfl⟩
  | (b, w) :: rest, low, hl, hm => by
    have hm' := hm
    rw [Memory.wfFrom_cons] at hm'
    obtain ⟨h1, h2, h3, h4⟩ := hm'
    unfold Memory.writeByte
    split
    · split
      · exact hm
      · rename_i hab hv
        exact Memory.wfFrom_cons.mpr ⟨hl, ha, hv, Memory.wfFrom_cons.mpr ⟨by omega, h2, h3, h4⟩⟩
    · split
      · rename_i hab heq
        subst heq
        split
        · exact Memory.wfFrom_mono (by omega) h4
        · rename_i hv
          exact Memory.wfFrom_cons.mpr ⟨hl, ha, hv, h4⟩
      · exact Memory.wfFrom_cons.mpr ⟨h1, h2, h3, Memory.writeByte_wfFrom v ha (by omega) h4⟩

/-- Reading the byte just written, in a canonical memory. -/
theorem Memory.readByte_writeByte_same (a : Nat) (v : Byte) :
    ∀ {m : Memory} {low : Nat}, m.wfFrom low = true → (m.writeByte a v).readByte a = v
  | [], _, _ => by
    unfold Memory.writeByte
    split <;> simp_all [Memory.readByte]
  | (b, w) :: rest, low, hm => by
    have hm' := Memory.wfFrom_cons.mp hm
    unfold Memory.writeByte
    split
    · split
      · rename_i hab hv
        rw [Memory.readByte_below (m := (b, w) :: rest) (low := b)
          (Memory.wfFrom_cons.mpr ⟨Nat.le_refl _, hm'.2⟩) hab, hv]
      · simp [Memory.readByte]
    · split
      · rename_i hab heq
        subst heq
        split
        · rename_i hv
          rw [Memory.readByte_below hm'.2.2.2 (by omega), hv]
        · simp [Memory.readByte]
      · rename_i hab hne
        simp only [Memory.readByte, hne, if_false]
        exact Memory.readByte_writeByte_same a v hm'.2.2.2

/-- Reading any other byte after a write, in any memory. -/
theorem Memory.readByte_writeByte_ne {a b : Nat} (h : b ≠ a) (v : Byte) :
    ∀ (m : Memory), (m.writeByte a v).readByte b = m.readByte b
  | [] => by
    unfold Memory.writeByte
    split <;> simp [Memory.readByte, h]
  | (c, w) :: rest => by
    unfold Memory.writeByte
    split
    · split <;> simp [Memory.readByte, h]
    · split
      · rename_i hac heq
        subst heq
        split <;> simp [Memory.readByte, h]
      · simp only [Memory.readByte]
        split
        · rfl
        · exact Memory.readByte_writeByte_ne h v rest

/-- A word write keeps the canonical form. -/
theorem Memory.writeWord_wf {m : Memory} (i : Nat) (v : Word) (hm : m.wf = true) : (m.writeWord i v).wf = true := by
  unfold Memory.writeWord
  split
  · rename_i hi
    have : 4 * i + 3 < 4 * Config.ramWords := by omega
    unfold Memory.wf at hm ⊢
    exact Memory.writeByte_wfFrom _ (by omega) (Nat.zero_le _) (Memory.writeByte_wfFrom _ (by omega) (Nat.zero_le _)
      (Memory.writeByte_wfFrom _ (by omega) (Nat.zero_le _) (Memory.writeByte_wfFrom _ (by omega) (Nat.zero_le _) hm)))
  · exact hm

/-- Words stored one after another keep the canonical form. -/
theorem Memory.writeWords_wf : ∀ (vs : List Word) {m : Memory} (i : Nat), m.wf = true → (m.writeWords i vs).wf = true
  | [], _, _, hm => hm
  | v :: rest, _, i, hm => Memory.writeWords_wf rest (i + 1) (Memory.writeWord_wf i v hm)

/-- A byte outside a word reads as before the word's write. -/
theorem Memory.readByte_writeWord_ne {i a : Nat} (m : Memory) (v : Word) (h : a < 4 * i ∨ 4 * i + 3 < a) :
    (m.writeWord i v).readByte a = m.readByte a := by
  unfold Memory.writeWord
  split
  · rw [Memory.readByte_writeByte_ne (by omega), Memory.readByte_writeByte_ne (by omega),
      Memory.readByte_writeByte_ne (by omega), Memory.readByte_writeByte_ne (by omega)]
  · rfl

/-- The four bytes of a word make it up again. -/
theorem pack8_byteOf (v : Word) : pack8 (byteOf v 0) (byteOf v 1) (byteOf v 2) (byteOf v 3) = v := by
  apply BitVec.eq_of_getLsbD_eq
  intro j hj
  show (_ ++ _ ++ _ ++ _ : BitVec (8 + 8 + 8 + 8)).getLsbD j = _
  simp only [byteOf, BitVec.getLsbD_append, BitVec.getLsbD_extractLsb']
  by_cases h1 : j < 8
  · simp [h1]
  · by_cases h2 : j - 8 < 8
    · simp [h1, h2]
      congr 1
      omega
    · by_cases h3 : j - 8 - 8 < 8
      · simp [h1, h2, h3]
        congr 1
        omega
      · have h4 : j - 8 - 8 - 8 < 8 := by omega
        simp [h1, h2, h3, h4]
        congr 1
        omega

/-- Byte 1 of a word made of four bytes. -/
theorem byteOf_pack8_one (b0 b1 b2 b3 : Byte) : byteOf (pack8 b0 b1 b2 b3) 1 = b1 := by
  refine BitVec.eq_of_getLsbD_eq fun i hi => ?_
  simp only [byteOf, pack8, BitVec.getLsbD_extractLsb', BitVec.getLsbD_append, hi, decide_true, Bool.true_and]
  rw [if_neg (by omega), if_pos (by omega)]
  congr 1
  omega

/-- The high half of a word made of four bytes. -/
theorem highHalf_pack8 (b0 b1 b2 b3 : Byte) : highHalf (pack8 b0 b1 b2 b3) = b3 ++ b2 := by
  refine BitVec.eq_of_getLsbD_eq fun i hi => ?_
  simp only [highHalf, pack8, BitVec.getLsbD_extractLsb', BitVec.getLsbD_append, hi, decide_true, Bool.true_and]
  (repeat' split) <;> first | omega | (congr 1; omega)

/-- Reading the word just written, in a canonical memory. -/
theorem Memory.readWord_writeWord_same {m : Memory} {i : Nat} (v : Word) (hi : i < Config.ramWords) (hm : m.wf = true) :
    (m.writeWord i v).readWord i = v := by
  unfold Memory.wf at hm
  have h0 := Memory.writeByte_wfFrom (byteOf v 0) (a := 4 * i) (by omega) (Nat.zero_le _) hm
  have h1 := Memory.writeByte_wfFrom (byteOf v 1) (a := 4 * i + 1) (by omega) (Nat.zero_le _) h0
  have h2 := Memory.writeByte_wfFrom (byteOf v 2) (a := 4 * i + 2) (by omega) (Nat.zero_le _) h1
  unfold Memory.writeWord Memory.readWord
  simp only [hi, if_true]
  rw [Memory.readByte_writeByte_same (4 * i + 3) _ h2,
    Memory.readByte_writeByte_ne (a := 4 * i + 3) (b := 4 * i + 2) (by omega), Memory.readByte_writeByte_same (4 * i + 2) _ h1,
    Memory.readByte_writeByte_ne (a := 4 * i + 3) (b := 4 * i + 1) (by omega),
    Memory.readByte_writeByte_ne (a := 4 * i + 2) (b := 4 * i + 1) (by omega), Memory.readByte_writeByte_same (4 * i + 1) _ h0,
    Memory.readByte_writeByte_ne (a := 4 * i + 3) (b := 4 * i) (by omega),
    Memory.readByte_writeByte_ne (a := 4 * i + 2) (b := 4 * i) (by omega),
    Memory.readByte_writeByte_ne (a := 4 * i + 1) (b := 4 * i) (by omega), Memory.readByte_writeByte_same (4 * i) _ hm,
    pack8_byteOf]

/-- Reading any other word after a write. -/
theorem Memory.readWord_writeWord_ne {i j : Nat} (m : Memory) (v : Word) (h : j ≠ i) :
    (m.writeWord i v).readWord j = m.readWord j := by
  unfold Memory.readWord
  rw [Memory.readByte_writeWord_ne m v (by omega), Memory.readByte_writeWord_ne m v (by omega),
    Memory.readByte_writeWord_ne m v (by omega), Memory.readByte_writeWord_ne m v (by omega)]

/-- A write beyond 8 KiB is ignored (R155). -/
theorem Memory.writeWord_beyond {i : Nat} (m : Memory) (v : Word) (h : Config.ramWords ≤ i) : m.writeWord i v = m := by
  unfold Memory.writeWord
  simp [Nat.not_lt.mpr h]

/-- A word outside a stretch of words reads as before the stretch's write. -/
theorem Memory.readWord_writeWords_ne : ∀ (vs : List Word) (m : Memory) (i j : Nat), (j < i ∨ i + vs.length ≤ j) →
    (m.writeWords i vs).readWord j = m.readWord j
  | [], _, _, _, _ => rfl
  | v :: rest, m, i, j, h => by
    have hl : (v :: rest).length = rest.length + 1 := rfl
    unfold Memory.writeWords
    rw [Memory.readWord_writeWords_ne rest _ (i + 1) j (by omega), Memory.readWord_writeWord_ne m v (by omega)]

/-- A word of a stretch reads as the stretch's write left it, in a canonical memory. -/
theorem Memory.readWord_writeWords_at : ∀ (vs : List Word) {m : Memory} (i k : Nat), m.wf = true →
    k < vs.length → i + k < Config.ramWords → (m.writeWords i vs).readWord (i + k) = vs.getD k 0
  | [], _, _, _, _, hk, _ => absurd hk (Nat.not_lt_zero _)
  | v :: rest, m, i, 0, hm, _, hi => by
    unfold Memory.writeWords
    rw [Memory.readWord_writeWords_ne rest _ (i + 1) (i + 0) (by omega)]
    exact Memory.readWord_writeWord_same v hi hm
  | v :: rest, m, i, k + 1, hm, hk, hi => by
    unfold Memory.writeWords
    have := Memory.readWord_writeWords_at rest (i + 1) k (Memory.writeWord_wf i v hm) (by simpa using hk) (by omega)
    rw [show i + (k + 1) = i + 1 + k by omega, this]
    simp

/-- A byte outside a stretch of words reads as before the stretch's write. -/
theorem Memory.readByte_writeWords_ne : ∀ (vs : List Word) (m : Memory) (i a : Nat), (a < 4 * i ∨ 4 * (i + vs.length) ≤ a) →
    (m.writeWords i vs).readByte a = m.readByte a
  | [], _, _, _, _ => rfl
  | v :: rest, m, i, a, h => by
    have hl : (v :: rest).length = rest.length + 1 := rfl
    unfold Memory.writeWords
    rw [Memory.readByte_writeWords_ne rest _ (i + 1) a (by omega), Memory.readByte_writeWord_ne m v (by omega)]

end Sys2Proof.Machine
end

