-- ==== Sys2Proof/Laws/State.lean ====
section
/-! SUPPORT. What each operation leaves alone: one theorem for each, naming every field of `State` that it keeps. Each is a simp
lemma, so that no later proof unfolds an operation to see past it. -/

namespace Sys2Proof.Machine

/-- `State.withPending` changes nothing but `pending`. -/
@[simp] theorem State.withPending_frame (s : State) (q : List Instr) : (s.withPending q).ram = s.ram ∧ (s.withPending
    q).lanes = s.lanes ∧ (s.withPending q).ft = s.ft ∧ (s.withPending q).fcu = s.fcu ∧ (s.withPending q).table =
    s.table ∧ (s.withPending q).sc = s.sc ∧ (s.withPending q).alc = s.alc ∧ (s.withPending q).rqe = s.rqe ∧
    (s.withPending q).nw = s.nw ∧ (s.withPending q).xp = s.xp ∧ (s.withPending q).freeIndex = s.freeIndex :=
  ⟨rfl, rfl, rfl, rfl, rfl, rfl, rfl, rfl, rfl, rfl, rfl⟩

/-- `raiseSummary` changes nothing but `xp`. -/
@[simp] theorem raiseSummary_frame (bit : BitVec 7) (s : State) : (raiseSummary bit s).ram = s.ram ∧ (raiseSummary bit
    s).lanes = s.lanes ∧ (raiseSummary bit s).ft = s.ft ∧ (raiseSummary bit s).fcu = s.fcu ∧ (raiseSummary bit
    s).table = s.table ∧ (raiseSummary bit s).sc = s.sc ∧ (raiseSummary bit s).alc = s.alc ∧ (raiseSummary bit s).rqe
    = s.rqe ∧ (raiseSummary bit s).nw = s.nw ∧ (raiseSummary bit s).freeIndex = s.freeIndex ∧ (raiseSummary bit
    s).pending = s.pending :=
  ⟨rfl, rfl, rfl, rfl, rfl, rfl, rfl, rfl, rfl, rfl, rfl⟩

/-- `offerNotice` changes nothing but `ram`, `nw`, `xp`. -/
@[simp] theorem offerNotice_frame (kind : NoticeKind) (subject : Nat) (first second : Word) (s : State) : (offerNotice
    kind subject first second s).lanes = s.lanes ∧ (offerNotice kind subject first second s).ft = s.ft ∧ (offerNotice
    kind subject first second s).fcu = s.fcu ∧ (offerNotice kind subject first second s).table = s.table ∧
    (offerNotice kind subject first second s).sc = s.sc ∧ (offerNotice kind subject first second s).alc = s.alc ∧
    (offerNotice kind subject first second s).rqe = s.rqe ∧ (offerNotice kind subject first second s).freeIndex =
    s.freeIndex ∧ (offerNotice kind subject first second s).pending = s.pending :=
  ⟨rfl, rfl, rfl, rfl, rfl, rfl, rfl, rfl, rfl⟩

/-- `finishSlot` changes nothing but `ram`, `xp`. -/
@[simp] theorem finishSlot_frame (slot : Nat) (kind : Byte) (tag : Half) (code : ResultCode) (detail : Nat) (payload :
    List Word) (s : State) : (finishSlot slot kind tag code detail payload s).lanes = s.lanes ∧ (finishSlot slot kind
    tag code detail payload s).ft = s.ft ∧ (finishSlot slot kind tag code detail payload s).fcu = s.fcu ∧ (finishSlot
    slot kind tag code detail payload s).table = s.table ∧ (finishSlot slot kind tag code detail payload s).sc = s.sc
    ∧ (finishSlot slot kind tag code detail payload s).alc = s.alc ∧ (finishSlot slot kind tag code detail payload
    s).rqe = s.rqe ∧ (finishSlot slot kind tag code detail payload s).nw = s.nw ∧ (finishSlot slot kind tag code
    detail payload s).freeIndex = s.freeIndex ∧ (finishSlot slot kind tag code detail payload s).pending = s.pending :=
  ⟨rfl, rfl, rfl, rfl, rfl, rfl, rfl, rfl, rfl, rfl⟩

/-- `completeLong` changes nothing but `ram`, `rqe`, `xp`. -/
@[simp] theorem completeLong_frame (owner : LongOwner) (code : ResultCode) (detail : Nat) (payload : List Word) (s :
    State) : (completeLong owner code detail payload s).lanes = s.lanes ∧ (completeLong owner code detail payload
    s).ft = s.ft ∧ (completeLong owner code detail payload s).fcu = s.fcu ∧ (completeLong owner code detail payload
    s).table = s.table ∧ (completeLong owner code detail payload s).sc = s.sc ∧ (completeLong owner code detail
    payload s).alc = s.alc ∧ (completeLong owner code detail payload s).nw = s.nw ∧ (completeLong owner code detail
    payload s).freeIndex = s.freeIndex ∧ (completeLong owner code detail payload s).pending = s.pending := by
  unfold completeLong
  split <;> simp

/-- `continueScan` changes nothing but `ram`, `rqe`. -/
@[simp] theorem continueScan_frame (s : State) : (continueScan s).lanes = s.lanes ∧ (continueScan s).ft = s.ft ∧
    (continueScan s).fcu = s.fcu ∧ (continueScan s).table = s.table ∧ (continueScan s).sc = s.sc ∧ (continueScan
    s).alc = s.alc ∧ (continueScan s).nw = s.nw ∧ (continueScan s).xp = s.xp ∧ (continueScan s).freeIndex =
    s.freeIndex ∧ (continueScan s).pending = s.pending :=
  ⟨rfl, rfl, rfl, rfl, rfl, rfl, rfl, rfl, rfl, rfl⟩

/-- `releaseEngine` changes nothing but `ram`, `rqe`. -/
@[simp] theorem releaseEngine_frame (s : State) : (releaseEngine s).lanes = s.lanes ∧ (releaseEngine s).ft = s.ft ∧
    (releaseEngine s).fcu = s.fcu ∧ (releaseEngine s).table = s.table ∧ (releaseEngine s).sc = s.sc ∧ (releaseEngine
    s).alc = s.alc ∧ (releaseEngine s).nw = s.nw ∧ (releaseEngine s).xp = s.xp ∧ (releaseEngine s).freeIndex =
    s.freeIndex ∧ (releaseEngine s).pending = s.pending :=
  ⟨rfl, rfl, rfl, rfl, rfl, rfl, rfl, rfl, rfl, rfl⟩

/-- `finish` changes nothing but `ram`, `rqe`, `xp`. -/
@[simp] theorem finish_frame (r : Request) (code : ResultCode) (detail : Nat) (payload : List Word) (s : State) :
    (finish r code detail payload s).lanes = s.lanes ∧ (finish r code detail payload s).ft = s.ft ∧ (finish r code
    detail payload s).fcu = s.fcu ∧ (finish r code detail payload s).table = s.table ∧ (finish r code detail payload
    s).sc = s.sc ∧ (finish r code detail payload s).alc = s.alc ∧ (finish r code detail payload s).nw = s.nw ∧ (finish
    r code detail payload s).freeIndex = s.freeIndex ∧ (finish r code detail payload s).pending = s.pending :=
  ⟨rfl, rfl, rfl, rfl, rfl, rfl, rfl, rfl, rfl⟩

/-- `stayTaken` changes nothing but `ram`, `rqe`. -/
@[simp] theorem stayTaken_frame (r : Request) (owner : LongOwner) (s : State) : (stayTaken r owner s).lanes = s.lanes
    ∧ (stayTaken r owner s).ft = s.ft ∧ (stayTaken r owner s).fcu = s.fcu ∧ (stayTaken r owner s).table = s.table ∧
    (stayTaken r owner s).sc = s.sc ∧ (stayTaken r owner s).alc = s.alc ∧ (stayTaken r owner s).nw = s.nw ∧ (stayTaken
    r owner s).xp = s.xp ∧ (stayTaken r owner s).freeIndex = s.freeIndex ∧ (stayTaken r owner s).pending = s.pending :=
  ⟨rfl, rfl, rfl, rfl, rfl, rfl, rfl, rfl, rfl, rfl⟩

/-- `setPhase` changes nothing but `rqe`. -/
@[simp] theorem setPhase_frame (r : Request) (p : Phase) (s : State) : (setPhase r p s).ram = s.ram ∧ (setPhase r p
    s).lanes = s.lanes ∧ (setPhase r p s).ft = s.ft ∧ (setPhase r p s).fcu = s.fcu ∧ (setPhase r p s).table = s.table
    ∧ (setPhase r p s).sc = s.sc ∧ (setPhase r p s).alc = s.alc ∧ (setPhase r p s).nw = s.nw ∧ (setPhase r p s).xp =
    s.xp ∧ (setPhase r p s).freeIndex = s.freeIndex ∧ (setPhase r p s).pending = s.pending :=
  ⟨rfl, rfl, rfl, rfl, rfl, rfl, rfl, rfl, rfl, rfl, rfl⟩

/-! ### The lanes -/

/-- `reportLane` changes nothing but `ram`, `nw`, `xp`. -/
@[simp] theorem reportLane_frame (l : LaneId) (before after : LaneState) (s : State) : (reportLane l before after
    s).lanes = s.lanes ∧ (reportLane l before after s).ft = s.ft ∧ (reportLane l before after s).fcu = s.fcu ∧
    (reportLane l before after s).table = s.table ∧ (reportLane l before after s).sc = s.sc ∧ (reportLane l before
    after s).alc = s.alc ∧ (reportLane l before after s).rqe = s.rqe ∧ (reportLane l before after s).freeIndex =
    s.freeIndex ∧ (reportLane l before after s).pending = s.pending := by
  unfold reportLane
  split
  · simp
  · split <;> simp

/-- `updateLane` changes nothing but `ram`, `lanes`, `nw`, `xp`. -/
@[simp] theorem updateLane_frame (l : LaneId) (x : Lane) (s : State) : (updateLane l x s).ft = s.ft ∧ (updateLane l x
    s).fcu = s.fcu ∧ (updateLane l x s).table = s.table ∧ (updateLane l x s).sc = s.sc ∧ (updateLane l x s).alc =
    s.alc ∧ (updateLane l x s).rqe = s.rqe ∧ (updateLane l x s).freeIndex = s.freeIndex ∧ (updateLane l x s).pending =
    s.pending := by
  unfold updateLane
  simp

/-- `ageLanes` changes nothing but `ram`, `lanes`, `nw`, `xp`. -/
@[simp] theorem ageLanes_frame (s : State) : (ageLanes s).ft = s.ft ∧ (ageLanes s).fcu = s.fcu ∧ (ageLanes s).table =
    s.table ∧ (ageLanes s).sc = s.sc ∧ (ageLanes s).alc = s.alc ∧ (ageLanes s).rqe = s.rqe ∧ (ageLanes s).freeIndex =
    s.freeIndex ∧ (ageLanes s).pending = s.pending := by
  simp [ageLanes, allLanes]

/-- `adoptLanes` changes nothing but `ram`, `lanes`, `nw`, `xp`. -/
@[simp] theorem adoptLanes_frame (s : State) : (adoptLanes s).ft = s.ft ∧ (adoptLanes s).fcu = s.fcu ∧ (adoptLanes
    s).table = s.table ∧ (adoptLanes s).sc = s.sc ∧ (adoptLanes s).alc = s.alc ∧ (adoptLanes s).rqe = s.rqe ∧
    (adoptLanes s).freeIndex = s.freeIndex ∧ (adoptLanes s).pending = s.pending := by
  simp [adoptLanes, allLanes]

/-- `clearLanes` changes nothing but `lanes`. -/
@[simp] theorem clearLanes_frame (s : State) : (clearLanes s).ram = s.ram ∧ (clearLanes s).ft = s.ft ∧ (clearLanes
    s).fcu = s.fcu ∧ (clearLanes s).table = s.table ∧ (clearLanes s).sc = s.sc ∧ (clearLanes s).alc = s.alc ∧
    (clearLanes s).rqe = s.rqe ∧ (clearLanes s).nw = s.nw ∧ (clearLanes s).xp = s.xp ∧ (clearLanes s).freeIndex =
    s.freeIndex ∧ (clearLanes s).pending = s.pending :=
  ⟨rfl, rfl, rfl, rfl, rfl, rfl, rfl, rfl, rfl, rfl, rfl⟩

/-- `setLaneRx` changes nothing but `lanes`. -/
@[simp] theorem setLaneRx_frame (l : LaneId) (rx : RxState) (s : State) : (setLaneRx l rx s).ram = s.ram ∧ (setLaneRx
    l rx s).ft = s.ft ∧ (setLaneRx l rx s).fcu = s.fcu ∧ (setLaneRx l rx s).table = s.table ∧ (setLaneRx l rx s).sc =
    s.sc ∧ (setLaneRx l rx s).alc = s.alc ∧ (setLaneRx l rx s).rqe = s.rqe ∧ (setLaneRx l rx s).nw = s.nw ∧ (setLaneRx
    l rx s).xp = s.xp ∧ (setLaneRx l rx s).freeIndex = s.freeIndex ∧ (setLaneRx l rx s).pending = s.pending :=
  ⟨rfl, rfl, rfl, rfl, rfl, rfl, rfl, rfl, rfl, rfl, rfl⟩

/-! ### The actuator link -/

/-- `setChannel` changes nothing but `alc`. -/
@[simp] theorem setChannel_frame (c : ChannelId) (x : Channel) (s : State) : (setChannel c x s).ram = s.ram ∧
    (setChannel c x s).lanes = s.lanes ∧ (setChannel c x s).ft = s.ft ∧ (setChannel c x s).fcu = s.fcu ∧ (setChannel c
    x s).table = s.table ∧ (setChannel c x s).sc = s.sc ∧ (setChannel c x s).rqe = s.rqe ∧ (setChannel c x s).nw =
    s.nw ∧ (setChannel c x s).xp = s.xp ∧ (setChannel c x s).freeIndex = s.freeIndex ∧ (setChannel c x s).pending =
    s.pending :=
  ⟨rfl, rfl, rfl, rfl, rfl, rfl, rfl, rfl, rfl, rfl, rfl⟩

/-- `supersede` changes nothing but `ram`, `alc`, `nw`, `xp`. -/
@[simp] theorem supersede_frame (c : ChannelId) (x : Channel) (old msg : Message) (s : State) : (supersede c x old msg
    s).lanes = s.lanes ∧ (supersede c x old msg s).ft = s.ft ∧ (supersede c x old msg s).fcu = s.fcu ∧ (supersede c x
    old msg s).table = s.table ∧ (supersede c x old msg s).sc = s.sc ∧ (supersede c x old msg s).rqe = s.rqe ∧
    (supersede c x old msg s).freeIndex = s.freeIndex ∧ (supersede c x old msg s).pending = s.pending := by
  unfold supersede
  split <;> simp

/-- `dueDeposit` changes nothing but `ram`, `alc`, `nw`, `xp`. -/
@[simp] theorem dueDeposit_frame (c : ChannelId) (msg : Message) (s : State) : (dueDeposit c msg s).lanes = s.lanes ∧
    (dueDeposit c msg s).ft = s.ft ∧ (dueDeposit c msg s).fcu = s.fcu ∧ (dueDeposit c msg s).table = s.table ∧
    (dueDeposit c msg s).sc = s.sc ∧ (dueDeposit c msg s).rqe = s.rqe ∧ (dueDeposit c msg s).freeIndex = s.freeIndex ∧
    (dueDeposit c msg s).pending = s.pending := by
  simp only [dueDeposit]
  split
  · simp
  · simp
  · simp
  · split <;> simp
  · split <;> simp

/-- `deposit` changes nothing but `ram`, `alc`, `nw`, `xp`. -/
@[simp] theorem deposit_frame (c : ChannelId) (msg : Message) (s : State) : (deposit c msg s).lanes = s.lanes ∧
    (deposit c msg s).ft = s.ft ∧ (deposit c msg s).fcu = s.fcu ∧ (deposit c msg s).table = s.table ∧ (deposit c msg
    s).sc = s.sc ∧ (deposit c msg s).rqe = s.rqe ∧ (deposit c msg s).freeIndex = s.freeIndex ∧ (deposit c msg
    s).pending = s.pending := by
  unfold deposit
  split <;> simp

/-- `freeLink` changes nothing but `alc`. -/
@[simp] theorem freeLink_frame (s : State) : (freeLink s).ram = s.ram ∧ (freeLink s).lanes = s.lanes ∧ (freeLink s).ft
    = s.ft ∧ (freeLink s).fcu = s.fcu ∧ (freeLink s).table = s.table ∧ (freeLink s).sc = s.sc ∧ (freeLink s).rqe =
    s.rqe ∧ (freeLink s).nw = s.nw ∧ (freeLink s).xp = s.xp ∧ (freeLink s).freeIndex = s.freeIndex ∧ (freeLink
    s).pending = s.pending :=
  ⟨rfl, rfl, rfl, rfl, rfl, rfl, rfl, rfl, rfl, rfl, rfl⟩

/-- `removeTransaction` changes nothing but `ram`, `alc`, `rqe`, `xp`. -/
@[simp] theorem removeTransaction_frame (c : ChannelId) (cond : Condition) (s : State) : (removeTransaction c cond
    s).lanes = s.lanes ∧ (removeTransaction c cond s).ft = s.ft ∧ (removeTransaction c cond s).fcu = s.fcu ∧
    (removeTransaction c cond s).table = s.table ∧ (removeTransaction c cond s).sc = s.sc ∧ (removeTransaction c cond
    s).nw = s.nw ∧ (removeTransaction c cond s).freeIndex = s.freeIndex ∧ (removeTransaction c cond s).pending =
    s.pending := by
  simp only [removeTransaction]
  split <;> simp

/-- `channelNotice` changes nothing but `ram`, `nw`, `xp`. -/
@[simp] theorem channelNotice_frame (c : ChannelId) (reason : ChannelReason) (cond : Condition) (s : State) :
    (channelNotice c reason cond s).lanes = s.lanes ∧ (channelNotice c reason cond s).ft = s.ft ∧ (channelNotice c
    reason cond s).fcu = s.fcu ∧ (channelNotice c reason cond s).table = s.table ∧ (channelNotice c reason cond s).sc
    = s.sc ∧ (channelNotice c reason cond s).alc = s.alc ∧ (channelNotice c reason cond s).rqe = s.rqe ∧
    (channelNotice c reason cond s).freeIndex = s.freeIndex ∧ (channelNotice c reason cond s).pending = s.pending :=
  ⟨rfl, rfl, rfl, rfl, rfl, rfl, rfl, rfl, rfl⟩

/-- `endGood` changes nothing but `ram`, `alc`, `rqe`, `nw`, `xp`. -/
@[simp] theorem endGood_frame (c : ChannelId) (cond : Condition) (s : State) : (endGood c cond s).lanes = s.lanes ∧
    (endGood c cond s).ft = s.ft ∧ (endGood c cond s).fcu = s.fcu ∧ (endGood c cond s).table = s.table ∧ (endGood c
    cond s).sc = s.sc ∧ (endGood c cond s).freeIndex = s.freeIndex ∧ (endGood c cond s).pending = s.pending := by
  simp only [endGood]
  split <;> split <;> simp

/-- `endMiss` changes nothing but `ram`, `alc`, `rqe`, `nw`, `xp`. -/
@[simp] theorem endMiss_frame (c : ChannelId) (cond : Condition) (s : State) : (endMiss c cond s).lanes = s.lanes ∧
    (endMiss c cond s).ft = s.ft ∧ (endMiss c cond s).fcu = s.fcu ∧ (endMiss c cond s).table = s.table ∧ (endMiss c
    cond s).sc = s.sc ∧ (endMiss c cond s).freeIndex = s.freeIndex ∧ (endMiss c cond s).pending = s.pending := by
  simp only [endMiss]
  split <;> simp

/-- `countStray` changes nothing but `alc`. -/
@[simp] theorem countStray_frame (s : State) : (countStray s).ram = s.ram ∧ (countStray s).lanes = s.lanes ∧
    (countStray s).ft = s.ft ∧ (countStray s).fcu = s.fcu ∧ (countStray s).table = s.table ∧ (countStray s).sc = s.sc
    ∧ (countStray s).rqe = s.rqe ∧ (countStray s).nw = s.nw ∧ (countStray s).xp = s.xp ∧ (countStray s).freeIndex =
    s.freeIndex ∧ (countStray s).pending = s.pending :=
  ⟨rfl, rfl, rfl, rfl, rfl, rfl, rfl, rfl, rfl, rfl, rfl⟩

/-- `classifyAwaited` changes nothing but `ram`, `alc`, `rqe`, `nw`, `xp`. -/
@[simp] theorem classifyAwaited_frame (t : Transaction) (address check : Byte) (s : State) : (classifyAwaited t
    address check s).lanes = s.lanes ∧ (classifyAwaited t address check s).ft = s.ft ∧ (classifyAwaited t address
    check s).fcu = s.fcu ∧ (classifyAwaited t address check s).table = s.table ∧ (classifyAwaited t address check
    s).sc = s.sc ∧ (classifyAwaited t address check s).freeIndex = s.freeIndex ∧ (classifyAwaited t address check
    s).pending = s.pending := by
  unfold classifyAwaited
  split
  · simp
  · split
    · simp
    · split <;> simp

/-- `classifyAck` changes nothing but `ram`, `alc`, `rqe`, `nw`, `xp`. -/
@[simp] theorem classifyAck_frame (address check : Byte) (s : State) : (classifyAck address check s).lanes = s.lanes ∧
    (classifyAck address check s).ft = s.ft ∧ (classifyAck address check s).fcu = s.fcu ∧ (classifyAck address check
    s).table = s.table ∧ (classifyAck address check s).sc = s.sc ∧ (classifyAck address check s).freeIndex =
    s.freeIndex ∧ (classifyAck address check s).pending = s.pending := by
  unfold classifyAck
  split <;> simp

/-- `setLinkRx` changes nothing but `alc`. -/
@[simp] theorem setLinkRx_frame (rx : RxState) (address : Option Byte) (s : State) : (setLinkRx rx address s).ram =
    s.ram ∧ (setLinkRx rx address s).lanes = s.lanes ∧ (setLinkRx rx address s).ft = s.ft ∧ (setLinkRx rx address
    s).fcu = s.fcu ∧ (setLinkRx rx address s).table = s.table ∧ (setLinkRx rx address s).sc = s.sc ∧ (setLinkRx rx
    address s).rqe = s.rqe ∧ (setLinkRx rx address s).nw = s.nw ∧ (setLinkRx rx address s).xp = s.xp ∧ (setLinkRx rx
    address s).freeIndex = s.freeIndex ∧ (setLinkRx rx address s).pending = s.pending :=
  ⟨rfl, rfl, rfl, rfl, rfl, rfl, rfl, rfl, rfl, rfl, rfl⟩

/-- `stopNow` changes nothing but `alc`. -/
@[simp] theorem stopNow_frame (c : ChannelId) (s : State) : (stopNow c s).ram = s.ram ∧ (stopNow c s).lanes = s.lanes
    ∧ (stopNow c s).ft = s.ft ∧ (stopNow c s).fcu = s.fcu ∧ (stopNow c s).table = s.table ∧ (stopNow c s).sc = s.sc ∧
    (stopNow c s).rqe = s.rqe ∧ (stopNow c s).nw = s.nw ∧ (stopNow c s).xp = s.xp ∧ (stopNow c s).freeIndex =
    s.freeIndex ∧ (stopNow c s).pending = s.pending :=
  ⟨rfl, rfl, rfl, rfl, rfl, rfl, rfl, rfl, rfl, rfl, rfl⟩

/-- `stopLater` changes nothing but `alc`. -/
@[simp] theorem stopLater_frame (c : ChannelId) (s : State) : (stopLater c s).ram = s.ram ∧ (stopLater c s).lanes =
    s.lanes ∧ (stopLater c s).ft = s.ft ∧ (stopLater c s).fcu = s.fcu ∧ (stopLater c s).table = s.table ∧ (stopLater c
    s).sc = s.sc ∧ (stopLater c s).rqe = s.rqe ∧ (stopLater c s).nw = s.nw ∧ (stopLater c s).xp = s.xp ∧ (stopLater c
    s).freeIndex = s.freeIndex ∧ (stopLater c s).pending = s.pending :=
  ⟨rfl, rfl, rfl, rfl, rfl, rfl, rfl, rfl, rfl, rfl, rfl⟩

/-- `restartChannel` changes nothing but `ram`, `alc`, `rqe`, `nw`, `xp`. -/
@[simp] theorem restartChannel_frame (c : ChannelId) (s : State) : (restartChannel c s).lanes = s.lanes ∧
    (restartChannel c s).ft = s.ft ∧ (restartChannel c s).fcu = s.fcu ∧ (restartChannel c s).table = s.table ∧
    (restartChannel c s).sc = s.sc ∧ (restartChannel c s).freeIndex = s.freeIndex ∧ (restartChannel c s).pending =
    s.pending := by
  simp only [restartChannel]
  split <;> simp

/-- `adoptLinkRecord` changes nothing but `alc`. -/
@[simp] theorem adoptLinkRecord_frame (s : State) : (adoptLinkRecord s).ram = s.ram ∧ (adoptLinkRecord s).lanes =
    s.lanes ∧ (adoptLinkRecord s).ft = s.ft ∧ (adoptLinkRecord s).fcu = s.fcu ∧ (adoptLinkRecord s).table = s.table ∧
    (adoptLinkRecord s).sc = s.sc ∧ (adoptLinkRecord s).rqe = s.rqe ∧ (adoptLinkRecord s).nw = s.nw ∧ (adoptLinkRecord
    s).xp = s.xp ∧ (adoptLinkRecord s).freeIndex = s.freeIndex ∧ (adoptLinkRecord s).pending = s.pending :=
  ⟨rfl, rfl, rfl, rfl, rfl, rfl, rfl, rfl, rfl, rfl, rfl⟩

/-- `clearCounts` changes nothing but `alc`. -/
@[simp] theorem clearCounts_frame (s : State) : (clearCounts s).ram = s.ram ∧ (clearCounts s).lanes = s.lanes ∧
    (clearCounts s).ft = s.ft ∧ (clearCounts s).fcu = s.fcu ∧ (clearCounts s).table = s.table ∧ (clearCounts s).sc =
    s.sc ∧ (clearCounts s).rqe = s.rqe ∧ (clearCounts s).nw = s.nw ∧ (clearCounts s).xp = s.xp ∧ (clearCounts
    s).freeIndex = s.freeIndex ∧ (clearCounts s).pending = s.pending :=
  ⟨rfl, rfl, rfl, rfl, rfl, rfl, rfl, rfl, rfl, rfl, rfl⟩

/-! ### The State Controller -/

/-- `changeState` changes nothing but `ram`, `sc`, `nw`, `xp`. -/
@[simp] theorem changeState_frame (new : OpState) (reason : StateReason) (s : State) : (changeState new reason
    s).lanes = s.lanes ∧ (changeState new reason s).ft = s.ft ∧ (changeState new reason s).fcu = s.fcu ∧ (changeState
    new reason s).table = s.table ∧ (changeState new reason s).alc = s.alc ∧ (changeState new reason s).rqe = s.rqe ∧
    (changeState new reason s).freeIndex = s.freeIndex ∧ (changeState new reason s).pending = s.pending := by
  simp only [changeState]
  split <;> simp

/-- `clearEscalation` changes nothing but `fcu`. -/
@[simp] theorem clearEscalation_frame (s : State) : (clearEscalation s).ram = s.ram ∧ (clearEscalation s).lanes =
    s.lanes ∧ (clearEscalation s).ft = s.ft ∧ (clearEscalation s).table = s.table ∧ (clearEscalation s).sc = s.sc ∧
    (clearEscalation s).alc = s.alc ∧ (clearEscalation s).rqe = s.rqe ∧ (clearEscalation s).nw = s.nw ∧
    (clearEscalation s).xp = s.xp ∧ (clearEscalation s).freeIndex = s.freeIndex ∧ (clearEscalation s).pending =
    s.pending :=
  ⟨rfl, rfl, rfl, rfl, rfl, rfl, rfl, rfl, rfl, rfl, rfl⟩

/-- `startCalibration` changes nothing but `ram`, `fcu`, `sc`, `nw`, `xp`. -/
@[simp] theorem startCalibration_frame (thenTarget : OpState) (s : State) : (startCalibration thenTarget s).lanes =
    s.lanes ∧ (startCalibration thenTarget s).ft = s.ft ∧ (startCalibration thenTarget s).table = s.table ∧
    (startCalibration thenTarget s).alc = s.alc ∧ (startCalibration thenTarget s).rqe = s.rqe ∧ (startCalibration
    thenTarget s).freeIndex = s.freeIndex ∧ (startCalibration thenTarget s).pending = s.pending := by
  simp [startCalibration]

/-- `calFailedNotice` changes nothing but `ram`, `nw`, `xp`. -/
@[simp] theorem calFailedNotice_frame (why : CalFailure) (s : State) : (calFailedNotice why s).lanes = s.lanes ∧
    (calFailedNotice why s).ft = s.ft ∧ (calFailedNotice why s).fcu = s.fcu ∧ (calFailedNotice why s).table = s.table
    ∧ (calFailedNotice why s).sc = s.sc ∧ (calFailedNotice why s).alc = s.alc ∧ (calFailedNotice why s).rqe = s.rqe ∧
    (calFailedNotice why s).freeIndex = s.freeIndex ∧ (calFailedNotice why s).pending = s.pending :=
  ⟨rfl, rfl, rfl, rfl, rfl, rfl, rfl, rfl, rfl⟩

/-- `failCalibration` changes nothing but `ram`, `sc`, `rqe`, `nw`, `xp`. -/
@[simp] theorem failCalibration_frame (why : CalFailure) (target : OpState) (reason : StateReason) (s : State) :
    (failCalibration why target reason s).lanes = s.lanes ∧ (failCalibration why target reason s).ft = s.ft ∧
    (failCalibration why target reason s).fcu = s.fcu ∧ (failCalibration why target reason s).table = s.table ∧
    (failCalibration why target reason s).alc = s.alc ∧ (failCalibration why target reason s).freeIndex = s.freeIndex
    ∧ (failCalibration why target reason s).pending = s.pending := by
  simp [failCalibration]

/-- `succeedCalibration` changes nothing but `ram`, `fcu`, `sc`, `rqe`, `nw`, `xp`. -/
@[simp] theorem succeedCalibration_frame (avg : CalSums) (s : State) : (succeedCalibration avg s).lanes = s.lanes ∧
    (succeedCalibration avg s).ft = s.ft ∧ (succeedCalibration avg s).table = s.table ∧ (succeedCalibration avg s).alc
    = s.alc ∧ (succeedCalibration avg s).freeIndex = s.freeIndex ∧ (succeedCalibration avg s).pending = s.pending := by
  simp [succeedCalibration]

/-- `calibrationFrame` changes nothing but `ram`, `fcu`, `sc`, `rqe`, `nw`, `xp`. -/
@[simp] theorem calibrationFrame_frame (p : Snapshot) (s : State) : (calibrationFrame p s).lanes = s.lanes ∧
    (calibrationFrame p s).ft = s.ft ∧ (calibrationFrame p s).table = s.table ∧ (calibrationFrame p s).alc = s.alc ∧
    (calibrationFrame p s).freeIndex = s.freeIndex ∧ (calibrationFrame p s).pending = s.pending := by
  simp only [calibrationFrame]
  split
  · simp
  · split
    · simp
    · split
      · simp
      · split <;> simp

/-- `recoverFromLimp` changes nothing but `ram`, `sc`, `nw`, `xp`. -/
@[simp] theorem recoverFromLimp_frame (report : LimpReport) (s : State) : (recoverFromLimp report s).lanes = s.lanes ∧
    (recoverFromLimp report s).ft = s.ft ∧ (recoverFromLimp report s).fcu = s.fcu ∧ (recoverFromLimp report s).table =
    s.table ∧ (recoverFromLimp report s).alc = s.alc ∧ (recoverFromLimp report s).rqe = s.rqe ∧ (recoverFromLimp
    report s).freeIndex = s.freeIndex ∧ (recoverFromLimp report s).pending = s.pending := by
  simp only [recoverFromLimp]
  split <;> simp

/-- `takeReport` changes nothing but `ram`, `fcu`, `sc`, `rqe`, `nw`, `xp`. -/
@[simp] theorem takeReport_frame (c : Computation) (r : Results) (s : State) : (takeReport c r s).lanes = s.lanes ∧
    (takeReport c r s).ft = s.ft ∧ (takeReport c r s).table = s.table ∧ (takeReport c r s).alc = s.alc ∧ (takeReport c
    r s).freeIndex = s.freeIndex ∧ (takeReport c r s).pending = s.pending := by
  simp only [takeReport]
  split
  · simp
  · simp
  · split <;> simp
  · split <;> simp
  · simp

/-- `goDormant` changes nothing but `ram`, `sc`, `rqe`, `nw`, `xp`. -/
@[simp] theorem goDormant_frame (s : State) : (goDormant s).lanes = s.lanes ∧ (goDormant s).ft = s.ft ∧ (goDormant
    s).fcu = s.fcu ∧ (goDormant s).table = s.table ∧ (goDormant s).alc = s.alc ∧ (goDormant s).freeIndex = s.freeIndex
    ∧ (goDormant s).pending = s.pending := by
  unfold goDormant
  split <;> simp

/-- `goStandby` changes nothing but `ram`, `sc`, `rqe`, `nw`, `xp`. -/
@[simp] theorem goStandby_frame (r : Request) (s : State) : (goStandby r s).lanes = s.lanes ∧ (goStandby r s).ft =
    s.ft ∧ (goStandby r s).fcu = s.fcu ∧ (goStandby r s).table = s.table ∧ (goStandby r s).alc = s.alc ∧ (goStandby r
    s).freeIndex = s.freeIndex ∧ (goStandby r s).pending = s.pending := by
  unfold goStandby
  split
  · split <;> simp
  · simp
  · simp
  · simp
  · simp

/-- `goActive` changes nothing but `ram`, `fcu`, `sc`, `rqe`, `nw`, `xp`. -/
@[simp] theorem goActive_frame (r : Request) (s : State) : (goActive r s).lanes = s.lanes ∧ (goActive r s).ft = s.ft ∧
    (goActive r s).table = s.table ∧ (goActive r s).alc = s.alc ∧ (goActive r s).freeIndex = s.freeIndex ∧ (goActive r
    s).pending = s.pending := by
  unfold goActive
  split
  · split <;> simp
  · simp
  · simp
  · simp
  · split <;> simp

/-- `acceptCalibration` changes nothing but `ram`, `fcu`, `sc`, `rqe`, `nw`, `xp`. -/
@[simp] theorem acceptCalibration_frame (r : Request) (s : State) : (acceptCalibration r s).lanes = s.lanes ∧
    (acceptCalibration r s).ft = s.ft ∧ (acceptCalibration r s).table = s.table ∧ (acceptCalibration r s).alc = s.alc
    ∧ (acceptCalibration r s).freeIndex = s.freeIndex ∧ (acceptCalibration r s).pending = s.pending := by
  simp [acceptCalibration]

/-- `goCalibrate` changes nothing but `ram`, `fcu`, `sc`, `rqe`, `nw`, `xp`. -/
@[simp] theorem goCalibrate_frame (r : Request) (s : State) : (goCalibrate r s).lanes = s.lanes ∧ (goCalibrate r s).ft
    = s.ft ∧ (goCalibrate r s).table = s.table ∧ (goCalibrate r s).alc = s.alc ∧ (goCalibrate r s).freeIndex =
    s.freeIndex ∧ (goCalibrate r s).pending = s.pending := by
  unfold goCalibrate
  split
  · simp
  · split
    · simp
    · simp
    · simp
    · split <;> simp
    · split <;> simp

/-- `abandonCalibration` changes nothing but `ram`, `sc`, `rqe`, `nw`, `xp`. -/
@[simp] theorem abandonCalibration_frame (r : Request) (s : State) : (abandonCalibration r s).lanes = s.lanes ∧
    (abandonCalibration r s).ft = s.ft ∧ (abandonCalibration r s).fcu = s.fcu ∧ (abandonCalibration r s).table =
    s.table ∧ (abandonCalibration r s).alc = s.alc ∧ (abandonCalibration r s).freeIndex = s.freeIndex ∧
    (abandonCalibration r s).pending = s.pending := by
  unfold abandonCalibration
  split <;> simp

/-! ### The frame cycle -/

/-- `beginComputation` changes nothing but `fcu` and, in `sc`, the mark of an entry to ACTIVE. -/
@[simp] theorem beginComputation_frame (c : Computation) (s : State) : (beginComputation c s).ram = s.ram ∧
    (beginComputation c s).lanes = s.lanes ∧ (beginComputation c s).ft = s.ft ∧ (beginComputation c s).table = s.table
    ∧ (beginComputation c s).sc = { s.sc with activeEntered := false } ∧ (beginComputation c s).alc = s.alc ∧
    (beginComputation c s).rqe = s.rqe ∧ (beginComputation c s).nw = s.nw ∧ (beginComputation c s).xp = s.xp ∧
    (beginComputation c s).freeIndex = s.freeIndex ∧ (beginComputation c s).pending = s.pending :=
  ⟨rfl, rfl, rfl, rfl, rfl, rfl, rfl, rfl, rfl, rfl, rfl⟩

/-- `startFrame` changes nothing but `ram`, `lanes`, `ft`, `fcu`, `nw`, `xp` and, in `sc`, the mark of an entry to ACTIVE. -/
@[simp] theorem startFrame_frame (s : State) : (startFrame s).table = s.table ∧
    (startFrame s).sc = { s.sc with activeEntered := s.sc.activeEntered && s.fcu.inFlight.isSome } ∧
    (startFrame s).alc = s.alc ∧ (startFrame s).rqe = s.rqe ∧ (startFrame s).freeIndex = s.freeIndex ∧
    (startFrame s).pending = s.pending := by
  unfold startFrame
  cases s.fcu.inFlight <;> simp

/-- What an entry to an operating state leaves in the SC. -/
@[simp] theorem StateController.enter_fields (c : StateController) (new : OpState) : (c.enter new).op = new ∧
    (c.enter new).prior = c.prior ∧ (c.enter new).thenTarget = c.thenTarget ∧ (c.enter new).calCount = c.calCount ∧
    (c.enter new).sums = c.sums ∧ (c.enter new).lastReport = c.lastReport ∧ (c.enter new).lastMotion = c.lastMotion :=
  ⟨rfl, rfl, rfl, rfl, rfl, rfl, rfl⟩

/-- Every entry to ACTIVE is marked, and no entry takes a mark away (R88, R99). -/
theorem StateController.enter_marks (c : StateController) (new : OpState) :
    (c.enter new).activeEntered = (decide (new = .active) || c.activeEntered) := by
  by_cases h : new = .active <;> simp [StateController.enter, h]

/-- The first computation of a stay in ACTIVE has R_prev 0 (R99). -/
theorem previousReduction_first {s : State} (ho : s.sc.op = .active) (he : s.sc.activeEntered = true) :
    previousReduction s = 0 := if_pos ⟨ho, he⟩

/-- Every other computation has the stored R as R_prev (R85). -/
theorem previousReduction_later {s : State} (h : s.sc.op ≠ .active ∨ s.sc.activeEntered = false) :
    previousReduction s = s.fcu.reduction :=
  if_neg fun ⟨ho, he⟩ => h.elim (· ho) fun hf => by simp [hf] at he

/-- The three parts of a character (R136), as the receiver takes them: a byte sent is the byte received. -/
@[simp] theorem characterOf_parts (b : Byte) :
    charStart (characterOf b) = false ∧ charData (characterOf b) = b ∧ charStop (characterOf b) = true := by
  revert b
  decide

/-- `consultArbiter` changes nothing but `alc`. -/
@[simp] theorem consultArbiter_frame (s : State) : (consultArbiter s).ram = s.ram ∧ (consultArbiter s).lanes = s.lanes ∧
    (consultArbiter s).ft = s.ft ∧ (consultArbiter s).fcu = s.fcu ∧ (consultArbiter s).table = s.table ∧
    (consultArbiter s).sc = s.sc ∧ (consultArbiter s).rqe = s.rqe ∧ (consultArbiter s).nw = s.nw ∧
    (consultArbiter s).xp = s.xp ∧ (consultArbiter s).freeIndex = s.freeIndex ∧ (consultArbiter s).pending = s.pending :=
  ⟨rfl, rfl, rfl, rfl, rfl, rfl, rfl, rfl, rfl, rfl, rfl⟩

/-- `depositAll` changes nothing but `ram`, `alc`, `nw`, `xp`. -/
@[simp] theorem depositAll_frame (frame : Word) (d : DepositSet) (s : State) : (depositAll frame d s).lanes = s.lanes
    ∧ (depositAll frame d s).ft = s.ft ∧ (depositAll frame d s).fcu = s.fcu ∧ (depositAll frame d s).table = s.table ∧
    (depositAll frame d s).sc = s.sc ∧ (depositAll frame d s).rqe = s.rqe ∧ (depositAll frame d s).freeIndex =
    s.freeIndex ∧ (depositAll frame d s).pending = s.pending := by
  simp [depositAll]

/-- `makeDeposits` changes nothing but `ram`, `alc`, `nw`, `xp`. -/
@[simp] theorem makeDeposits_frame (c : Computation) (r : Results) (s : State) : (makeDeposits c r s).lanes = s.lanes
    ∧ (makeDeposits c r s).ft = s.ft ∧ (makeDeposits c r s).fcu = s.fcu ∧ (makeDeposits c r s).table = s.table ∧
    (makeDeposits c r s).sc = s.sc ∧ (makeDeposits c r s).rqe = s.rqe ∧ (makeDeposits c r s).freeIndex = s.freeIndex ∧
    (makeDeposits c r s).pending = s.pending := by
  unfold makeDeposits
  split <;> simp

/-- `escalationNotice` changes nothing but `ram`, `nw`, `xp`. -/
@[simp] theorem escalationNotice_frame (c : Computation) (r : Results) (s : State) : (escalationNotice c r s).lanes =
    s.lanes ∧ (escalationNotice c r s).ft = s.ft ∧ (escalationNotice c r s).fcu = s.fcu ∧ (escalationNotice c r
    s).table = s.table ∧ (escalationNotice c r s).sc = s.sc ∧ (escalationNotice c r s).alc = s.alc ∧ (escalationNotice
    c r s).rqe = s.rqe ∧ (escalationNotice c r s).freeIndex = s.freeIndex ∧ (escalationNotice c r s).pending =
    s.pending := by
  unfold escalationNotice
  split <;> simp

/-- `gradeNotice` changes nothing but `ram`, `nw`, `xp`. -/
@[simp] theorem gradeNotice_frame (r : Results) (s : State) : (gradeNotice r s).lanes = s.lanes ∧ (gradeNotice r s).ft
    = s.ft ∧ (gradeNotice r s).fcu = s.fcu ∧ (gradeNotice r s).table = s.table ∧ (gradeNotice r s).sc = s.sc ∧
    (gradeNotice r s).alc = s.alc ∧ (gradeNotice r s).rqe = s.rqe ∧ (gradeNotice r s).freeIndex = s.freeIndex ∧
    (gradeNotice r s).pending = s.pending := by
  unfold gradeNotice
  split <;> simp

/-- `verdictNotice` changes nothing but `ram`, `nw`, `xp`. -/
@[simp] theorem verdictNotice_frame (old new : Byte) (k : Nat) (s : State) : (verdictNotice old new k s).lanes =
    s.lanes ∧ (verdictNotice old new k s).ft = s.ft ∧ (verdictNotice old new k s).fcu = s.fcu ∧ (verdictNotice old new
    k s).table = s.table ∧ (verdictNotice old new k s).sc = s.sc ∧ (verdictNotice old new k s).alc = s.alc ∧
    (verdictNotice old new k s).rqe = s.rqe ∧ (verdictNotice old new k s).freeIndex = s.freeIndex ∧ (verdictNotice old
    new k s).pending = s.pending := by
  unfold verdictNotice
  split <;> simp

/-- `verdictNotices` changes nothing but `ram`, `nw`, `xp`. -/
@[simp] theorem verdictNotices_frame (old new : Byte) (s : State) : (verdictNotices old new s).lanes = s.lanes ∧
    (verdictNotices old new s).ft = s.ft ∧ (verdictNotices old new s).fcu = s.fcu ∧ (verdictNotices old new s).table =
    s.table ∧ (verdictNotices old new s).sc = s.sc ∧ (verdictNotices old new s).alc = s.alc ∧ (verdictNotices old new
    s).rqe = s.rqe ∧ (verdictNotices old new s).freeIndex = s.freeIndex ∧ (verdictNotices old new s).pending =
    s.pending := by
  simp [verdictNotices, List.range, List.range.loop]

/-- `unitNotices` changes nothing but `ram`, `fcu`, `nw`, `xp`. -/
@[simp] theorem unitNotices_frame (c : Computation) (r : Results) (s : State) : (unitNotices c r s).lanes = s.lanes ∧
    (unitNotices c r s).ft = s.ft ∧ (unitNotices c r s).table = s.table ∧ (unitNotices c r s).sc = s.sc ∧ (unitNotices
    c r s).alc = s.alc ∧ (unitNotices c r s).rqe = s.rqe ∧ (unitNotices c r s).freeIndex = s.freeIndex ∧ (unitNotices
    c r s).pending = s.pending := by
  simp [unitNotices]

/-- `publish` changes nothing but `ram`, `fcu`, `xp`. -/
@[simp] theorem publish_frame (c : Computation) (r : Results) (s : State) : (publish c r s).lanes = s.lanes ∧ (publish
    c r s).ft = s.ft ∧ (publish c r s).table = s.table ∧ (publish c r s).sc = s.sc ∧ (publish c r s).alc = s.alc ∧
    (publish c r s).rqe = s.rqe ∧ (publish c r s).nw = s.nw ∧ (publish c r s).freeIndex = s.freeIndex ∧ (publish c r
    s).pending = s.pending := by
  simp [publish]

/-- `recordCapture` changes nothing but `ram`, `fcu`, `rqe`, `xp`. -/
@[simp] theorem recordCapture_frame (c : Computation) (r : Results) (s : State) : (recordCapture c r s).lanes =
    s.lanes ∧ (recordCapture c r s).ft = s.ft ∧ (recordCapture c r s).table = s.table ∧ (recordCapture c r s).sc =
    s.sc ∧ (recordCapture c r s).alc = s.alc ∧ (recordCapture c r s).nw = s.nw ∧ (recordCapture c r s).freeIndex =
    s.freeIndex ∧ (recordCapture c r s).pending = s.pending := by
  simp only [recordCapture]
  split
  · simp
  · split
    · simp
    · split <;> simp

/-- `throughReport` changes nothing but `ram`, `fcu`, `sc`, `alc`, `rqe`, `nw`, `xp`. -/
@[simp] theorem throughReport_frame (c : Computation) (r : Results) (s : State) : (throughReport c r s).lanes =
    s.lanes ∧ (throughReport c r s).ft = s.ft ∧ (throughReport c r s).table = s.table ∧ (throughReport c r
    s).freeIndex = s.freeIndex ∧ (throughReport c r s).pending = s.pending := by
  simp [throughReport]

/-- `completeComputation` changes nothing but `ram`, `fcu`, `sc`, `alc`, `rqe`, `nw`, `xp`. -/
@[simp] theorem completeComputation_frame (c : Computation) (s : State) : (completeComputation c s).lanes = s.lanes ∧
    (completeComputation c s).ft = s.ft ∧ (completeComputation c s).table = s.table ∧ (completeComputation c
    s).freeIndex = s.freeIndex ∧ (completeComputation c s).pending = s.pending := by
  simp [completeComputation]

/-- `completeInFlight` changes nothing but `ram`, `fcu`, `sc`, `alc`, `rqe`, `nw`, `xp`. -/
@[simp] theorem completeInFlight_frame (s : State) : (completeInFlight s).lanes = s.lanes ∧ (completeInFlight s).ft =
    s.ft ∧ (completeInFlight s).table = s.table ∧ (completeInFlight s).freeIndex = s.freeIndex ∧ (completeInFlight
    s).pending = s.pending := by
  unfold completeInFlight
  split <;> simp

/-- `requestCapture` changes nothing but `ram`, `fcu`, `rqe`, `xp`. -/
@[simp] theorem requestCapture_frame (r : Request) (s : State) : (requestCapture r s).lanes = s.lanes ∧
    (requestCapture r s).ft = s.ft ∧ (requestCapture r s).table = s.table ∧ (requestCapture r s).sc = s.sc ∧
    (requestCapture r s).alc = s.alc ∧ (requestCapture r s).nw = s.nw ∧ (requestCapture r s).freeIndex = s.freeIndex ∧
    (requestCapture r s).pending = s.pending := by
  unfold requestCapture
  split
  · simp
  · split <;> simp

/-- `abandonRunningCapture` changes nothing but `ram`, `fcu`, `rqe`, `xp`. -/
@[simp] theorem abandonRunningCapture_frame (r : Request) (s : State) : (abandonRunningCapture r s).lanes = s.lanes ∧
    (abandonRunningCapture r s).ft = s.ft ∧ (abandonRunningCapture r s).table = s.table ∧ (abandonRunningCapture r
    s).sc = s.sc ∧ (abandonRunningCapture r s).alc = s.alc ∧ (abandonRunningCapture r s).nw = s.nw ∧
    (abandonRunningCapture r s).freeIndex = s.freeIndex ∧ (abandonRunningCapture r s).pending = s.pending := by
  unfold abandonRunningCapture
  split <;> simp

/-! ### Records, tables and resets -/

/-- `adoptModeRecord` changes nothing but `ft`, `fcu`. -/
@[simp] theorem adoptModeRecord_frame (s : State) : (adoptModeRecord s).ram = s.ram ∧ (adoptModeRecord s).lanes =
    s.lanes ∧ (adoptModeRecord s).table = s.table ∧ (adoptModeRecord s).sc = s.sc ∧ (adoptModeRecord s).alc = s.alc ∧
    (adoptModeRecord s).rqe = s.rqe ∧ (adoptModeRecord s).nw = s.nw ∧ (adoptModeRecord s).xp = s.xp ∧ (adoptModeRecord
    s).freeIndex = s.freeIndex ∧ (adoptModeRecord s).pending = s.pending :=
  ⟨rfl, rfl, rfl, rfl, rfl, rfl, rfl, rfl, rfl, rfl⟩

/-- `adoptLoadRecord` changes nothing but `fcu`. -/
@[simp] theorem adoptLoadRecord_frame (s : State) : (adoptLoadRecord s).ram = s.ram ∧ (adoptLoadRecord s).lanes =
    s.lanes ∧ (adoptLoadRecord s).ft = s.ft ∧ (adoptLoadRecord s).table = s.table ∧ (adoptLoadRecord s).sc = s.sc ∧
    (adoptLoadRecord s).alc = s.alc ∧ (adoptLoadRecord s).rqe = s.rqe ∧ (adoptLoadRecord s).nw = s.nw ∧
    (adoptLoadRecord s).xp = s.xp ∧ (adoptLoadRecord s).freeIndex = s.freeIndex ∧ (adoptLoadRecord s).pending =
    s.pending :=
  ⟨rfl, rfl, rfl, rfl, rfl, rfl, rfl, rfl, rfl, rfl, rfl⟩

/-- `adoptNamed` changes nothing but `ram`, `lanes`, `ft`, `fcu`, `alc`, `nw`, `xp`. -/
@[simp] theorem adoptNamed_frame (mask : Word) (s : State) : (adoptNamed mask s).table = s.table ∧ (adoptNamed mask
    s).sc = s.sc ∧ (adoptNamed mask s).rqe = s.rqe ∧ (adoptNamed mask s).freeIndex = s.freeIndex ∧ (adoptNamed mask
    s).pending = s.pending := by
  unfold adoptNamed ifNamed
  split <;> split <;> split <;> split <;> simp

/-- `applyAdopt` changes nothing but `ram`, `lanes`, `ft`, `fcu`, `alc`, `rqe`, `nw`, `xp`. -/
@[simp] theorem applyAdopt_frame (r : Request) (s : State) : (applyAdopt r s).table = s.table ∧ (applyAdopt r s).sc =
    s.sc ∧ (applyAdopt r s).freeIndex = s.freeIndex ∧ (applyAdopt r s).pending = s.pending := by
  simp [applyAdopt]

/-- `clearStickyFlags` changes nothing but `fcu`. -/
@[simp] theorem clearStickyFlags_frame (s : State) : (clearStickyFlags s).ram = s.ram ∧ (clearStickyFlags s).lanes =
    s.lanes ∧ (clearStickyFlags s).ft = s.ft ∧ (clearStickyFlags s).table = s.table ∧ (clearStickyFlags s).sc = s.sc ∧
    (clearStickyFlags s).alc = s.alc ∧ (clearStickyFlags s).rqe = s.rqe ∧ (clearStickyFlags s).nw = s.nw ∧
    (clearStickyFlags s).xp = s.xp ∧ (clearStickyFlags s).freeIndex = s.freeIndex ∧ (clearStickyFlags s).pending =
    s.pending :=
  ⟨rfl, rfl, rfl, rfl, rfl, rfl, rfl, rfl, rfl, rfl, rfl⟩

/-- `clearHeader` changes nothing but `ram`, `nw`. -/
@[simp] theorem clearHeader_frame (s : State) : (clearHeader s).lanes = s.lanes ∧ (clearHeader s).ft = s.ft ∧
    (clearHeader s).fcu = s.fcu ∧ (clearHeader s).table = s.table ∧ (clearHeader s).sc = s.sc ∧ (clearHeader s).alc =
    s.alc ∧ (clearHeader s).rqe = s.rqe ∧ (clearHeader s).xp = s.xp ∧ (clearHeader s).freeIndex = s.freeIndex ∧
    (clearHeader s).pending = s.pending :=
  ⟨rfl, rfl, rfl, rfl, rfl, rfl, rfl, rfl, rfl, rfl⟩

/-- `clearNamed` changes nothing but `ram`, `lanes`, `fcu`, `alc`, `nw`. -/
@[simp] theorem clearNamed_frame (mask : Word) (s : State) : (clearNamed mask s).ft = s.ft ∧ (clearNamed mask s).table
    = s.table ∧ (clearNamed mask s).sc = s.sc ∧ (clearNamed mask s).rqe = s.rqe ∧ (clearNamed mask s).xp = s.xp ∧
    (clearNamed mask s).freeIndex = s.freeIndex ∧ (clearNamed mask s).pending = s.pending := by
  unfold clearNamed ifNamed
  split <;> split <;> split <;> split <;> simp

/-- `applyClear` changes nothing but `ram`, `lanes`, `fcu`, `alc`, `rqe`, `nw`, `xp`. -/
@[simp] theorem applyClear_frame (r : Request) (s : State) : (applyClear r s).ft = s.ft ∧ (applyClear r s).table =
    s.table ∧ (applyClear r s).sc = s.sc ∧ (applyClear r s).freeIndex = s.freeIndex ∧ (applyClear r s).pending =
    s.pending := by
  simp [applyClear]

/-- `applyLoad` changes nothing but `ram`, `table`, `rqe`, `xp`. -/
@[simp] theorem applyLoad_frame (r : Request) (s : State) : (applyLoad r s).lanes = s.lanes ∧ (applyLoad r s).ft =
    s.ft ∧ (applyLoad r s).fcu = s.fcu ∧ (applyLoad r s).sc = s.sc ∧ (applyLoad r s).alc = s.alc ∧ (applyLoad r s).nw
    = s.nw ∧ (applyLoad r s).freeIndex = s.freeIndex ∧ (applyLoad r s).pending = s.pending := by
  simp only [applyLoad]
  split <;> simp

/-- `beginDump` changes nothing but `rqe`. -/
@[simp] theorem beginDump_frame (r : Request) (s : State) : (beginDump r s).ram = s.ram ∧ (beginDump r s).lanes =
    s.lanes ∧ (beginDump r s).ft = s.ft ∧ (beginDump r s).fcu = s.fcu ∧ (beginDump r s).table = s.table ∧ (beginDump r
    s).sc = s.sc ∧ (beginDump r s).alc = s.alc ∧ (beginDump r s).nw = s.nw ∧ (beginDump r s).xp = s.xp ∧ (beginDump r
    s).freeIndex = s.freeIndex ∧ (beginDump r s).pending = s.pending :=
  ⟨rfl, rfl, rfl, rfl, rfl, rfl, rfl, rfl, rfl, rfl, rfl⟩

/-- `executeAdopt` changes nothing but `ram`, `lanes`, `ft`, `fcu`, `alc`, `rqe`, `nw`, `xp`. -/
@[simp] theorem executeAdopt_frame (r : Request) (s : State) : (executeAdopt r s).table = s.table ∧ (executeAdopt r
    s).sc = s.sc ∧ (executeAdopt r s).freeIndex = s.freeIndex ∧ (executeAdopt r s).pending = s.pending := by
  unfold executeAdopt gapRequest
  split
  · split <;> simp
  · simp

/-- `executeClear` changes nothing but `ram`, `lanes`, `fcu`, `alc`, `rqe`, `nw`, `xp`. -/
@[simp] theorem executeClear_frame (r : Request) (s : State) : (executeClear r s).ft = s.ft ∧ (executeClear r s).table
    = s.table ∧ (executeClear r s).sc = s.sc ∧ (executeClear r s).freeIndex = s.freeIndex ∧ (executeClear r s).pending
    = s.pending := by
  unfold executeClear gapRequest
  split
  · split <;> simp
  · simp

/-- `executeLoad` changes nothing but `ram`, `table`, `rqe`, `xp`. -/
@[simp] theorem executeLoad_frame (r : Request) (s : State) : (executeLoad r s).lanes = s.lanes ∧ (executeLoad r s).ft
    = s.ft ∧ (executeLoad r s).fcu = s.fcu ∧ (executeLoad r s).sc = s.sc ∧ (executeLoad r s).alc = s.alc ∧
    (executeLoad r s).nw = s.nw ∧ (executeLoad r s).freeIndex = s.freeIndex ∧ (executeLoad r s).pending = s.pending := by
  unfold executeLoad gapRequest
  split
  · simp
  · split <;> simp

/-- `applyWaiting` changes nothing but `ram`, `lanes`, `ft`, `fcu`, `table`, `alc`, `rqe`, `nw`, `xp`. -/
@[simp] theorem applyWaiting_frame (r : Request) (s : State) : (applyWaiting r s).sc = s.sc ∧ (applyWaiting r
    s).freeIndex = s.freeIndex ∧ (applyWaiting r s).pending = s.pending := by
  unfold applyWaiting
  split
  · simp
  · split
    · simp
    · split
      · simp
      · split <;> simp

/-- `advanceDump` changes nothing but `ram`, `rqe`, `freeIndex`. -/
@[simp] theorem advanceDump_frame (s : State) : (advanceDump s).lanes = s.lanes ∧ (advanceDump s).ft = s.ft ∧
    (advanceDump s).fcu = s.fcu ∧ (advanceDump s).table = s.table ∧ (advanceDump s).sc = s.sc ∧ (advanceDump s).alc =
    s.alc ∧ (advanceDump s).nw = s.nw ∧ (advanceDump s).xp = s.xp ∧ (advanceDump s).pending = s.pending := by
  unfold advanceDump
  split <;> simp

/-- `cutCapture` changes nothing but `ram`, `freeIndex`. -/
@[simp] theorem cutCapture_frame (s : State) : (cutCapture s).lanes = s.lanes ∧ (cutCapture s).ft = s.ft ∧ (cutCapture
    s).fcu = s.fcu ∧ (cutCapture s).table = s.table ∧ (cutCapture s).sc = s.sc ∧ (cutCapture s).alc = s.alc ∧
    (cutCapture s).rqe = s.rqe ∧ (cutCapture s).nw = s.nw ∧ (cutCapture s).xp = s.xp ∧ (cutCapture s).pending =
    s.pending := by
  unfold cutCapture
  split
  · split <;> simp
  · simp

/-- `attention` changes nothing but `ram`, `rqe`. -/
@[simp] theorem attention_frame (s : State) : (attention s).lanes = s.lanes ∧ (attention s).ft = s.ft ∧ (attention
    s).fcu = s.fcu ∧ (attention s).table = s.table ∧ (attention s).sc = s.sc ∧ (attention s).alc = s.alc ∧ (attention
    s).nw = s.nw ∧ (attention s).xp = s.xp ∧ (attention s).freeIndex = s.freeIndex ∧ (attention s).pending = s.pending
    := by
  unfold attention
  split <;> simp

/-- `requestStop` changes nothing but `ram`, `alc`, `rqe`, `xp`. -/
@[simp] theorem requestStop_frame (r : Request) (s : State) : (requestStop r s).lanes = s.lanes ∧ (requestStop r s).ft
    = s.ft ∧ (requestStop r s).fcu = s.fcu ∧ (requestStop r s).table = s.table ∧ (requestStop r s).sc = s.sc ∧
    (requestStop r s).nw = s.nw ∧ (requestStop r s).freeIndex = s.freeIndex ∧ (requestStop r s).pending = s.pending := by
  unfold requestStop
  split <;> simp

/-- `requestResume` changes nothing but `ram`, `alc`, `rqe`, `xp`. -/
@[simp] theorem requestResume_frame (r : Request) (s : State) : (requestResume r s).lanes = s.lanes ∧ (requestResume r
    s).ft = s.ft ∧ (requestResume r s).fcu = s.fcu ∧ (requestResume r s).table = s.table ∧ (requestResume r s).sc =
    s.sc ∧ (requestResume r s).nw = s.nw ∧ (requestResume r s).freeIndex = s.freeIndex ∧ (requestResume r s).pending =
    s.pending := by
  unfold requestResume
  split <;> simp

/-- `takeCharacter` changes nothing but `alc`. -/
@[simp] theorem takeCharacter_frame (ch : BitVec 10) (s : State) : (takeCharacter ch s).ram = s.ram ∧ (takeCharacter
    ch s).lanes = s.lanes ∧ (takeCharacter ch s).ft = s.ft ∧ (takeCharacter ch s).fcu = s.fcu ∧ (takeCharacter ch
    s).table = s.table ∧ (takeCharacter ch s).sc = s.sc ∧ (takeCharacter ch s).rqe = s.rqe ∧ (takeCharacter ch s).nw =
    s.nw ∧ (takeCharacter ch s).xp = s.xp ∧ (takeCharacter ch s).freeIndex = s.freeIndex ∧ (takeCharacter ch
    s).pending = s.pending := by
  unfold takeCharacter
  split
  · simp
  · split
    · split <;> simp
    · simp

end Sys2Proof.Machine
end

