-- ==== Sys2Proof/Laws/Notices.lean ====
section
/-! SUPPORT. What the Notice Writer does with an offered notice, and the stretches of words that operations store. -/

namespace Sys2Proof.Machine

open Sys2Proof.Safety

/-- Words stored one after another are stored as Safety.lean states it. -/
theorem Memory.writeWords_stored {m : Memory} (i : Nat) (ws : List Word) (hm : m.wf = true) (hi : i + ws.length ≤ Config.ramWords) :
    Stored m (m.writeWords i ws) i ws :=
  ⟨Memory.writeWords_wf ws i hm, fun k hk => Memory.readWord_writeWords_at ws i k hm hk (by omega),
    fun a ha => Memory.readByte_writeWords_ne ws m i a ha⟩

/-- One word stored is a stretch of one. -/
theorem Memory.writeWord_stored {m : Memory} (i : Nat) (w : Word) (hm : m.wf = true) (hi : i < Config.ramWords) :
    Stored m (m.writeWord i w) i [w] :=
  Memory.writeWords_stored (m := m) i [w] hm (by simpa using hi)

/-- An offered notice is taken as R175 and R176 say. -/
theorem offerNotice_taken {s : State} (kind : NoticeKind) (subject : Nat) (first second : Word) (hm : s.ram.wf = true) :
    NoticeTaken kind subject first second s (offerNotice kind subject first second s) := by
  unfold NoticeTaken
  split
  · rename_i h
    simp only [offerNotice, noticeOutcome, noticeEnabled, h, Bool.false_eq_true, if_false]
  · rename_i h
    have hen : noticeEnabled s.fcu.mode.noticeMask kind = true := by
      simpa [noticeEnabled] using h
    split
    · rename_i hfull
      refine ⟨_, Memory.writeWord_stored headerWord _ hm (by decide), ?_⟩
      simp only [offerNotice, noticeOutcome, hen, if_true, writeNotice, hfull]
      rfl
    · rename_i hfull
      have hpos : noticeWord (s.nw.writeCount.toNat % 64) + 4 ≤ Config.ramWords := by
        have := Nat.mod_lt s.nw.writeCount.toNat (show 0 < 64 by decide)
        unfold noticeWord Config.ramWords
        omega
      have h1 := Memory.writeWords_stored (noticeWord (s.nw.writeCount.toNat % 64))
        [pack16 s.nw.writeCount (u8 subject ++ u8 kind.code), s.ft.frame, first, second] hm hpos
      refine ⟨_, _, h1, Memory.writeWord_stored headerWord _ h1.1 (by decide), ?_⟩
      simp only [offerNotice, noticeOutcome, hen, if_true, writeNotice, hfull, if_false]
      rfl

/-- Taking a notice keeps the canonical form. -/
theorem noticeTaken_wf {kind : NoticeKind} {subject : Nat} {first second : Word} {s t : State}
    (h : NoticeTaken kind subject first second s t) (hm : s.ram.wf = true) : t.ram.wf = true := by
  unfold NoticeTaken at h
  split at h
  · rw [h]
    exact hm
  · split at h
    · obtain ⟨m, hs, rfl⟩ := h
      exact hs.1
    · obtain ⟨m, m', -, hs, rfl⟩ := h
      exact hs.1

end Sys2Proof.Machine
end

