-- ==== Sys2Proof/Laws/Requests.lean ====
section
/-! SUPPORT. What the shared operations on requests come to: the step-by-step scan is the declarative one of Safety.lean, a completed
request's slot reads as R165 says, and what stands on the long-running list. -/

namespace Sys2Proof.Machine

open Sys2Proof.Safety

/-! ### The scan -/

theorem firstPosted_past {m : Memory} {start next : Nat} (h : 16 ≤ next) : firstPosted m start next = none := by
  simp [firstPosted, Nat.sub_eq_zero_of_le h]

theorem firstPosted_step {m : Memory} {start next : Nat} (h : next < 16) :
    firstPosted m start next =
      if slotMark m ((start + next) % 16) = markPosted then some next else firstPosted m start (next + 1) := by
  have hk : 16 - next = (16 - (next + 1)) + 1 := by omega
  unfold firstPosted
  rw [hk, List.range_succ_eq_map, List.map_cons, List.find?_cons]
  simp only [Nat.add_zero, List.map_map]
  have hf : ((fun x => next + x) ∘ Nat.succ) = fun x => next + 1 + x := by
    funext x
    simp only [Function.comp]
    omega
  rw [hf]
  split <;> simp_all

/-- A scan that meets a POSTED slot takes the first one. -/
theorem scanOn_takes {m : Memory} {start j : Nat} : ∀ (fuel : Nat) {e : RequestEngine} {next : Nat},
    e.scan = some ⟨start, next⟩ → firstPosted m start next = some j → 16 - next ≤ fuel → scanOn fuel m e = takenAt m e start j
  | 0, e, next, _, hf, hfuel => by
    rw [firstPosted_past (by omega)] at hf
    cases hf
  | fuel + 1, e, next, hs, hf, hfuel => by
    by_cases hn : next < 16
    · rw [firstPosted_step hn] at hf
      unfold scanOn
      simp only [hs, Nat.not_le.mpr hn, if_false]
      split at hf
      · rename_i hp
        cases hf
        simp only [hp, if_true]
        rfl
      · rename_i hp
        simp only [hp, if_false]
        rw [scanOn_takes fuel (e := { e with scan := some ⟨start, next + 1⟩ }) rfl hf (by omega)]
        rfl
    · rw [firstPosted_past (by omega)] at hf
      cases hf

/-- A scan that meets no POSTED slot passes over all its positions. -/
theorem scanOn_passes {m : Memory} {start : Nat} : ∀ (d : Nat) {fuel : Nat} {e : RequestEngine} {next : Nat},
    e.scan = some ⟨start, next⟩ → firstPosted m start next = none → next + d = 16 →
    scanOn (d + fuel) m e = scanOn fuel m { e with scan := some ⟨start, 16⟩ }
  | 0, fuel, e, next, hs, _, hd => by
    have hn : next = 16 := by omega
    subst hn
    rw [Nat.zero_add, ← hs]
  | d + 1, fuel, e, next, hs, hf, hd => by
    have hn : next < 16 := by omega
    rw [firstPosted_step hn] at hf
    split at hf
    · cases hf
    · rename_i hp
      rw [Nat.add_right_comm]
      rw [scanOn]
      simp only [hs, Nat.not_le.mpr hn, if_false, hp]
      rw [scanOn_passes d (e := { e with scan := some ⟨start, next + 1⟩ }) rfl hf (by omega)]

/-- The end of a scan with no rescan pending. -/
theorem scanOn_end {m : Memory} {start next fuel : Nat} {e : RequestEngine} (hs : e.scan = some ⟨start, next⟩) (hn : 16 ≤ next)
    (hr : e.rescan = false) : scanOn (fuel + 1) m e = (m, { e with scan := none }) := by
  unfold scanOn
  simp [hs, hn, hr]

/-- The end of a scan with a rescan pending: a scan of all positions from the cursor. -/
theorem scanOn_again {m : Memory} {start next fuel : Nat} {e : RequestEngine} (hs : e.scan = some ⟨start, next⟩) (hn : 16 ≤ next)
    (hr : e.rescan = true) : scanOn (fuel + 1) m e = scanOn fuel m { e with rescan := false, scan := some ⟨e.cursor, 0⟩ } := by
  rw [scanOn]
  simp [hs, hn, hr]

/-- One whole scan with no rescan pending. -/
theorem scanOn_single {m : Memory} {start next fuel : Nat} {e : RequestEngine} (hs : e.scan = some ⟨start, next⟩)
    (hr : e.rescan = false) (hfuel : 17 ≤ fuel) :
    scanOn fuel m e =
      match firstPosted m start next with
      | some j => takenAt m e start j
      | none => (m, { e with scan := none }) := by
  cases hf : firstPosted m start next with
  | some j => exact scanOn_takes fuel hs hf (by omega)
  | none =>
    by_cases hn : 16 ≤ next
    · obtain ⟨k, rfl⟩ : ∃ k, fuel = k + 1 := ⟨fuel - 1, by omega⟩
      exact scanOn_end hs hn hr
    · obtain ⟨k, rfl⟩ : ∃ k, fuel = (16 - next) + (k + 1) := ⟨fuel - (16 - next) - 1, by omega⟩
      rw [scanOn_passes (16 - next) hs hf (by omega), scanOn_end (start := start) (next := 16) rfl (Nat.le_refl _) (by exact hr)]

/-- The end of a scan with a rescan pending, and the scan that follows. -/
theorem scanOn_rescan {m : Memory} {start next fuel : Nat} {e : RequestEngine} (hs : e.scan = some ⟨start, next⟩) (hn : 16 ≤ next)
    (hr : e.rescan = true) (hfuel : 18 ≤ fuel) :
    scanOn fuel m e =
      match firstPosted m e.cursor 0 with
      | some j => takenAt m { e with rescan := false } e.cursor j
      | none => (m, { e with rescan := false, scan := none }) := by
  obtain ⟨k, rfl⟩ : ∃ k, fuel = k + 1 := ⟨fuel - 1, by omega⟩
  rw [scanOn_again hs hn hr, scanOn_single (e := { e with rescan := false, scan := some ⟨e.cursor, 0⟩ }) rfl rfl (by omega)]
  cases firstPosted m e.cursor 0 <;> rfl

/-- The step-by-step scan of the Request Engine is the declarative one (R161). -/
theorem scanOn_eq_scanned (m : Memory) (e : RequestEngine) : scanOn scanFuel m e = scanned m e := by
  obtain ⟨cursor, scan, rescan, execution, long⟩ := e
  cases scan with
  | none => rfl
  | some sc =>
    obtain ⟨start, next⟩ := sc
    cases rescan with
    | false =>
      rw [scanOn_single rfl rfl (by decide)]
      cases hf : firstPosted m start next <;> simp [scanned, hf]
    | true =>
      cases hf : firstPosted m start next with
      | some j =>
        rw [scanOn_takes scanFuel rfl hf (by unfold scanFuel; omega)]
        simp only [scanned, hf]
      | none =>
        simp only [scanned, hf, if_true]
        by_cases hn : 16 ≤ next
        · rw [scanOn_rescan rfl hn rfl (by decide)]
          all_goals (cases firstPosted m cursor 0 <;> rfl)
        · rw [show scanFuel = (16 - next) + (scanFuel - (16 - next)) by unfold scanFuel; omega,
            scanOn_passes (16 - next) rfl hf (by omega),
            scanOn_rescan (next := 16) rfl (Nat.le_refl _) rfl (by unfold scanFuel; omega)]
          all_goals (cases firstPosted m cursor 0 <;> rfl)

/-- A free Request Engine's scan goes on (R161). -/
theorem continueScan_eq (s : State) (h : s.rqe.execution = none) :
    continueScan s = { s with ram := (scanned s.ram s.rqe).1, rqe := (scanned s.ram s.rqe).2 } := by
  unfold continueScan
  simp [h, scanOn_eq_scanned]

/-- A Request Engine with a request in execution waits at its position (R161). -/
theorem continueScan_waits (s : State) (h : s.rqe.execution ≠ none) : continueScan s = s := by
  unfold continueScan
  cases hx : s.rqe.execution <;> simp_all

/-- The Request Engine released, its scan gone on. -/
theorem releaseEngine_eq (s : State) : releaseEngine s = releasedAndScanned s := by
  unfold releaseEngine
  rw [continueScan_eq _ rfl]
  rfl

/-- What a scan can do: nothing taken, or one slot marked TAKEN and its request put into execution. -/
theorem scanned_cases (m : Memory) (e : RequestEngine) :
    ((scanned m e).1 = m ∧ (scanned m e).2.execution = e.execution ∧ (scanned m e).2.scan = none ∧
        (scanned m e).2.cursor = e.cursor ∧ (scanned m e).2.long = e.long ∧ ((scanned m e).2.rescan = true → e.scan = none)) ∨
      ∃ slot j start, slot < 16 ∧ slotMark m slot = markPosted ∧
        (scanned m e).1 = m.writeWord (slotWord slot) (firstWord markTaken (readRequest m slot).kind (readRequest m slot).tag) ∧
        (scanned m e).2.execution = some ⟨readRequest m slot, .taken⟩ ∧ (scanned m e).2.scan = some ⟨start, j⟩ ∧
        (scanned m e).2.cursor = (slot + 1) % 16 ∧ (scanned m e).2.long = e.long := by
  have posted : ∀ {start next j : Nat}, firstPosted m start next = some j → slotMark m ((start + j) % 16) = markPosted := by
    intro start next j h
    have := List.find?_some h
    simpa using this
  unfold scanned
  split
  · rename_i hs
    exact .inl ⟨rfl, rfl, hs, rfl, rfl, fun _ => hs⟩
  · rename_i sc hs
    split
    · rename_i j hf
      exact .inr ⟨_, _, _, Nat.mod_lt _ (by decide), posted hf, rfl, rfl, rfl, rfl, rfl⟩
    · split
      · split
        · rename_i j hf
          exact .inr ⟨_, _, _, Nat.mod_lt _ (by decide), posted hf, rfl, rfl, rfl, rfl, rfl⟩
        · exact .inl ⟨rfl, rfl, rfl, rfl, rfl, fun h => by simp at h⟩
      · rename_i hr
        exact .inl ⟨rfl, rfl, rfl, rfl, rfl, fun h => absurd h hr⟩

/-- A scan keeps the canonical form. -/
theorem scanned_wf {m : Memory} (e : RequestEngine) (hm : m.wf = true) : (scanned m e).1.wf = true := by
  obtain h | ⟨slot, j, start, -, -, h, -⟩ := scanned_cases m e
  · rw [h.1]
    exact hm
  · rw [h]
    exact Memory.writeWord_wf _ _ hm

/-! ### Completion -/

/-- A completed slot keeps the canonical form. -/
theorem completedSlot_wf {m : Memory} (slot : Nat) (kind : Byte) (tag : Half) (code : ResultCode) (detail : Nat)
    (payload : List Word) (hm : m.wf = true) : (completedSlot m slot kind tag code detail payload).wf = true :=
  Memory.writeWord_wf _ _ (Memory.writeWord_wf _ _ (Memory.writeWords_wf _ _ hm))

/-- A completed slot reads as R165 says. -/
theorem completedSlot_written {m : Memory} {slot : Nat} (kind : Byte) (tag : Half) (code : ResultCode) (detail : Nat)
    {payload : List Word} (hm : m.wf = true) (hslot : slot < 16) (hp : payload.length ≤ 28) :
    SlotWritten m (completedSlot m slot kind tag code detail payload) slot kind tag code detail payload := by
  have hw : slotWord slot + 32 ≤ Config.ramWords := by
    unfold slotWord Config.ramWords
    omega
  have h1 := Memory.writeWords_wf payload (slotWord slot + 4) hm
  have h2 := Memory.writeWord_wf (slotWord slot + 1) (pack16 (u16 code.code) (u16 detail)) h1
  refine ⟨completedSlot_wf slot kind tag code detail payload hm, ?_, ?_, ?_, ?_⟩
  · exact Memory.readWord_writeWord_same _ (by omega) h2
  · unfold completedSlot
    rw [Memory.readWord_writeWord_ne _ _ (by omega)]
    exact Memory.readWord_writeWord_same _ (by omega) h1
  · intro k hk
    unfold completedSlot
    rw [Memory.readWord_writeWord_ne _ _ (by omega), Memory.readWord_writeWord_ne _ _ (by omega)]
    exact Memory.readWord_writeWords_at payload _ k hm hk (by omega)
  · intro a ha
    unfold completedSlot
    rw [Memory.readByte_writeWord_ne _ _ (by omega), Memory.readByte_writeWord_ne _ _ (by omega),
      Memory.readByte_writeWords_ne _ _ _ _ (by omega)]

/-- A request's completion is the one Safety.lean states (R163, R165). -/
theorem finish_completes {s : State} {r : Request} (code : ResultCode) (detail : Nat) {payload : List Word}
    (hm : s.ram.wf = true) (hslot : r.slot < 16) (hp : payload.length ≤ 28) :
    Completes r code detail payload s (finish r code detail payload s) :=
  ⟨_, completedSlot_written r.kind r.tag code detail hm hslot hp, by
    unfold finish
    rw [releaseEngine_eq]
    rfl⟩

/-- A request left TAKEN is as Safety.lean states it (R164). -/
theorem stayTaken_stays (r : Request) (owner : LongOwner) (s : State) : StaysTaken r owner s (stayTaken r owner s) := by
  unfold StaysTaken stayTaken
  rw [releaseEngine_eq]

/-- A long-running request's completion is the one Safety.lean states (R164, R165). -/
theorem completeLong_completes {s : State} (owner : LongOwner) (code : ResultCode) (detail : Nat) {payload : List Word}
    (hm : s.ram.wf = true) (hslot : ∀ e ∈ s.rqe.long, e.slot < 16) (hp : payload.length ≤ 28) :
    LongCompletes owner code detail payload s (completeLong owner code detail payload s) := by
  unfold LongCompletes completeLong longEntryOf
  cases h : s.rqe.long.find? fun e => e.owner == owner with
  | none => exact rfl
  | some e =>
    dsimp only
    exact ⟨_, completedSlot_written _ _ code detail hm (hslot e (List.mem_of_find?_eq_some h)) hp, rfl⟩

/-- The taken request's own row runs it. -/
theorem withTaken_runs {belongs : Request → Bool} {run : Request → State → State} {s : State} {r : Request}
    (h : s.rqe.execution = some ⟨r, .taken⟩) (hb : belongs r = true) : withTaken belongs run s = run r s := by
  simp [withTaken, takenRequest, h, hb]

/-- A row whose request is not the one taken changes nothing (notes/assumptions/2.md). -/
theorem withTaken_idle {belongs : Request → Bool} {run : Request → State → State} {s : State}
    (h : ∀ r, s.rqe.execution = some ⟨r, .taken⟩ → belongs r = false) : withTaken belongs run s = s := by
  unfold withTaken takenRequest
  split
  · rename_i r hr
    split at hr
    · rename_i r' hx
      cases hr
      simp [h _ hx]
    · cases hr
  · rfl

/-! ### A dump that a host access or a soft reset meets -/

/-- With no dump writing nothing has changed (R75). -/
theorem advanceDump_idle {s : State} (h : ∀ r w, s.rqe.execution ≠ some ⟨r, .dumping w⟩) : advanceDump s = s := by
  unfold advanceDump
  split
  · rename_i r w hx
    exact absurd hx (h r w)
  · rfl

/-- A dump that is writing has come to some word, never its last (R75): the image words from the old progress to the new one hold the
table, every other word is as it was. -/
theorem advanceDump_writes {s : State} {r : Request} {w : Nat} (h : s.rqe.execution = some ⟨r, .dumping w⟩)
    (hm : s.ram.wf = true) (hw : w ≤ 255) :
    ∃ m n, w ≤ n ∧ n ≤ 255 ∧ m.wf = true ∧
      (∀ i, m.readWord i = if imageWord + w ≤ i ∧ i < imageWord + n then imageOf s.table (i - imageWord) else s.ram.readWord i) ∧
      advanceDump s =
        { s with ram := m, rqe := { s.rqe with execution := some ⟨r, .dumping n⟩ }, freeIndex := s.freeIndex + 1 } := by
  have hn : w ≤ dumpReach w s.freeIndex ∧ dumpReach w s.freeIndex ≤ 255 := by
    unfold dumpReach
    omega
  refine ⟨dumpSpan s.ram s.table w (dumpReach w s.freeIndex), dumpReach w s.freeIndex, hn.1, hn.2,
    Memory.writeWords_wf _ _ hm, fun i => ?_, ?_⟩
  · have hlen : (imageSpan s.table w (dumpReach w s.freeIndex)).length = dumpReach w s.freeIndex - w := by simp [imageSpan]
    unfold dumpSpan
    split
    · rename_i hi
      obtain ⟨k, rfl⟩ : ∃ k, i = imageWord + w + k := ⟨i - (imageWord + w), by omega⟩
      rw [Memory.readWord_writeWords_at _ _ k hm (by omega) (by unfold imageWord Config.ramWords at *; omega)]
      have hk : k < dumpReach w s.freeIndex - w := by omega
      simp [imageSpan, List.getD, hk, show imageWord + w + k - imageWord = w + k by omega]
    · exact Memory.readWord_writeWords_ne _ _ _ _ (by omega)
  · unfold advanceDump
    rw [h]

/-! ### The arbiter -/

/-- A consulted arbiter does what Safety.lean states (R142). -/
theorem consulted_eq_arbitrated (a : LinkController) : a.consulted = arbitrated a := by
  obtain ⟨e, b, t, link, outstanding, stray, record, rx, address, driven⟩ := a
  unfold LinkController.consulted arbitrated grantable firstPending granted grant messageCharacters
  cases link
  · dsimp only [LinkController.get]
    by_cases hb : b.state = .pending
    · cases hs : b.slot <;> simp [hb, hs]
    · by_cases he : e.state = .pending
      · cases hs : e.slot <;> simp [hb, he, hs]
      · by_cases ht : t.state = .pending
        · cases hs : t.slot <;> simp [hb, he, ht, hs]
        · simp [hb, he, ht]
  all_goals rfl

/-! ### Kind and tag as taken -/

/-- The Request Engine's copy of a slot, by the bytes of R187. -/
theorem readRequest_kind_tag (m : Memory) {k : Nat} (hk : k < 16) :
    (readRequest m k).kind = m.readByte (0x700 + 128 * k + 1) ∧
      (readRequest m k).tag = m.readByte (0x700 + 128 * k + 3) ++ m.readByte (0x700 + 128 * k + 2) := by
  have ha : 4 * slotWord k = 0x700 + 128 * k := by unfold slotWord; omega
  have hb : slotWord k < Config.ramWords := show 448 + 32 * k < 2048 by omega
  simp only [readRequest, Memory.readWord, hb, if_true, ha, byteOf_pack8_one, highHalf_pack8, and_self]

/-- The kind and tag of a TAKEN slot at a soft reset are those it was taken with (R165, R172). -/
theorem takenAs_takenWith (m : Memory) (e : RequestEngine) {k : Nat} (hk : k < 16) :
    TakenWith m e k (takenAs m e k).1 (takenAs m e k).2 := by
  refine ⟨fun x he hx => by simp [takenAs, he, hx], fun h => ?_⟩
  have listed : takenAs m e k = takenAs.fromLists m e k := by
    unfold takenAs
    cases he : e.execution with
    | none => rfl
    | some x => simp [h x he]
  rw [listed]
  refine ⟨fun before x after hl hx hlast => ?_, fun hnone => ?_⟩
  · have hf : e.long.reverse.find? (fun x => x.slot == k) = some x := by
      rw [hl, List.reverse_append, List.reverse_cons, List.append_assoc, List.find?_append,
        List.find?_eq_none.mpr (by simpa using hlast)]
      simp [hx]
    simp [takenAs.fromLists, hf]
  · have hf : e.long.reverse.find? (fun x => x.slot == k) = none := List.find?_eq_none.mpr (by simpa using hnone)
    simp only [takenAs.fromLists, hf]
    exact readRequest_kind_tag m hk

end Sys2Proof.Machine
end

