-- ==== Sys2Proof/Laws/Kept.lean ====
section
/-! SUPPORT. What holds of the Exchange RAM and the Exchange Port through every operation: a property that storing words and setting
SUMMARY and its enables keep is kept by every command. The canonical form of the RAM is one such property (`wf_storable`). -/

namespace Sys2Proof.Machine

open Sys2Proof.Safety

/-- A property of RAM and port that the part's only ways of writing them keep. -/
structure Storable (P : Memory → ExchangePort → Prop) : Prop where
  word : ∀ {m p} (i : Nat) (v : Word), P m p → P (m.writeWord i v) p
  port : ∀ {m p} (summary enable : BitVec 7), P m p → P m (portWith summary enable)

/-- A property of RAM and port, of a state. -/
def Holds (P : Memory → ExchangePort → Prop) (s : State) : Prop := P s.ram s.xp

/-- The canonical form is kept by every store. -/
theorem wf_storable : Storable fun m _ => m.wf = true := ⟨fun i v h => Memory.writeWord_wf i v h, fun _ _ h => h⟩

variable {P : Memory → ExchangePort → Prop} (I : Storable P)


include I

theorem Storable.words : ∀ (vs : List Word) {m : Memory} {p : ExchangePort} (i : Nat), P m p → P (m.writeWords i vs) p
  | [], _, _, _, h => h
  | v :: rest, _, _, i, h => Storable.words rest (i + 1) (I.word i v h)

theorem Storable.raised {m : Memory} {p : ExchangePort} (bit : BitVec 7) (h : P m p) : P m (p.raise bit) := I.port _ _ h

theorem Storable.raiseSummary {s : State} (bit : BitVec 7) (h : Holds P s) :
    Holds P (raiseSummary bit s) := I.raised bit h

theorem Storable.offerNotice {s : State} (kind : NoticeKind) (subject : Nat) (first second : Word) (h : Holds P s) :
    Holds P (offerNotice kind subject first second s) := by
  have key : P (noticeOutcome kind subject first second s).1 (noticeOutcome kind subject first second s).2.2 := by
    unfold noticeOutcome
    split
    · unfold writeNotice
      split
      · dsimp only
        exact I.word _ _ h
      · dsimp only
        exact I.raised _ (I.word _ _ (I.words _ _ h))
    · exact h
  exact key

theorem Storable.finishSlot {s : State} (slot : Nat) (kind : Byte) (tag : Half) (code : ResultCode) (detail : Nat)
    (payload : List Word) (h : Holds P s) :
    Holds P (finishSlot slot kind tag code detail payload s) :=
  I.raised _ (I.word _ _ (I.word _ _ (I.words _ _ h)))

theorem Storable.completeLong {s : State} (owner : LongOwner) (code : ResultCode) (detail : Nat) (payload : List Word)
    (h : Holds P s) :
    Holds P (completeLong owner code detail payload s) := by
  unfold Machine.completeLong
  split
  · exact h
  · exact I.finishSlot _ _ _ _ _ _ h

theorem Storable.scanned {m : Memory} {p : ExchangePort} (e : RequestEngine) (h : P m p) : P (scanned m e).1 p := by
  obtain hs | ⟨slot, j, start, -, -, hs, -⟩ := scanned_cases m e
  · rw [hs.1]
    exact h
  · rw [hs]
    exact I.word _ _ h

theorem Storable.continueScan {s : State} (h : Holds P s) : Holds P (continueScan s) := by
  by_cases he : s.rqe.execution = none
  · rw [continueScan_eq s he]
    exact I.scanned _ h
  · rw [continueScan_waits s he]
    exact h

theorem Storable.releaseEngine {s : State} (h : Holds P s) : Holds P (releaseEngine s) :=
  I.continueScan (s := { s with rqe := { s.rqe with execution := none } }) h

theorem Storable.finish {s : State} (r : Request) (code : ResultCode) (detail : Nat) (payload : List Word) (h : Holds P s) :
    Holds P (finish r code detail payload s) :=
  I.releaseEngine (I.finishSlot _ _ _ _ _ _ h)

theorem Storable.stayTaken {s : State} (r : Request) (owner : LongOwner) (h : Holds P s) :
    Holds P (stayTaken r owner s) :=
  I.releaseEngine (s := { s with rqe := { s.rqe with long := s.rqe.long ++ [⟨r.slot, r.kind, r.tag, owner⟩] } }) h

omit I in
theorem Storable.withTaken {s : State} {belongs : Request → Bool} {run : Request → State → State} (h : Holds P s)
    (hr : ∀ r {t : State}, Holds P t → Holds P (run r t)) :
    Holds P (withTaken belongs run s) := by
  unfold Machine.withTaken
  split
  · split
    · exact hr _ h
    · exact h
  · exact h

omit I in
theorem Storable.gapRequest {s : State} {apply : Request → State → State} (r : Request) (h : Holds P s)
    (hr : ∀ r {t : State}, Holds P t → Holds P (apply r t)) :
    Holds P (gapRequest apply r s) := by
  unfold Machine.gapRequest
  split
  · exact hr _ h
  · exact h

/-! ### The lanes -/

theorem Storable.reportLane {s : State} (l : LaneId) (before after : LaneState) (h : Holds P s) :
    Holds P (reportLane l before after s) := by
  unfold Machine.reportLane
  split
  · exact h
  · split
    · exact I.raiseSummary _ (I.offerNotice _ _ _ _ h)
    · exact I.offerNotice _ _ _ _ h

theorem Storable.updateLane {s : State} (l : LaneId) (x : Lane) (h : Holds P s) :
    Holds P (updateLane l x s) := I.reportLane (s := { s with lanes := s.lanes.set l x }) _ _ _ h

theorem Storable.ageLanes {s : State} (h : Holds P s) : Holds P (ageLanes s) := by
  simp only [Machine.ageLanes, allLanes, List.foldl_cons, List.foldl_nil]
  exact I.updateLane _ _ (I.updateLane _ _ (I.updateLane _ _ (I.updateLane _ _ (I.updateLane _ _ h))))

theorem Storable.adoptLanes {s : State} (h : Holds P s) : Holds P (adoptLanes s) := by
  simp only [Machine.adoptLanes, allLanes, List.foldl_cons, List.foldl_nil]
  exact I.updateLane _ _ (I.updateLane _ _ (I.updateLane _ _ (I.updateLane _ _ (I.updateLane _ _ h))))

/-! ### The actuator link -/

theorem Storable.supersede {s : State} (c : ChannelId) (x : Channel) (old msg : Message) (h : Holds P s) :
    Holds P (supersede c x old msg s) := by
  unfold Machine.supersede
  dsimp only
  split
  · exact I.offerNotice (s := setChannel c _ s) _ _ _ _ h
  · exact h

theorem Storable.deposit {s : State} (c : ChannelId) (msg : Message) (h : Holds P s) :
    Holds P (deposit c msg s) := by
  unfold Machine.deposit
  split
  · unfold dueDeposit
    dsimp only
    split
    · exact h
    · exact h
    · exact h
    · split
      · exact I.supersede _ _ _ _ h
      · exact h
    · split
      · exact I.supersede _ _ _ _ h
      · exact h
  · exact h

theorem Storable.channelNotice {s : State} (c : ChannelId) (reason : ChannelReason) (cond : Condition) (h : Holds P s) :
    Holds P (channelNotice c reason cond s) := I.offerNotice _ _ _ _ h

theorem Storable.removeTransaction {s : State} (c : ChannelId) (cond : Condition) (h : Holds P s) :
    Holds P (removeTransaction c cond s) := by
  unfold Machine.removeTransaction
  dsimp only
  split
  · exact I.completeLong (s := freeLink (setChannel c _ s)) _ _ _ _ h
  · exact h

theorem Storable.endGood {s : State} (c : ChannelId) (cond : Condition) (h : Holds P s) :
    Holds P (endGood c cond s) := by
  unfold Machine.endGood
  extract_lets x s1 s2 s3
  have h1 : Holds P s1 := h
  have h2 : Holds P s2 := by
    unfold s2
    split
    · exact h1
    · exact I.channelNotice _ _ _ h1
  have h3 : Holds P s3 := by
    unfold s3
    split
    · exact I.channelNotice _ _ _ h2
    · exact h2
  exact I.removeTransaction _ _ h3

theorem Storable.endMiss {s : State} (c : ChannelId) (cond : Condition) (h : Holds P s) :
    Holds P (endMiss c cond s) := by
  unfold Machine.endMiss
  extract_lets x n h' s1 s2
  have h1 : Holds P s1 := h
  have h2 : Holds P s2 := by
    unfold s2
    split
    · exact I.raiseSummary _ (I.channelNotice _ _ _ h1)
    · exact h1
  exact I.removeTransaction _ _ h2

theorem Storable.classifyAck {s : State} (address check : Byte) (h : Holds P s) :
    Holds P (classifyAck address check s) := by
  unfold Machine.classifyAck
  split
  · exact h
  · exact h
  · unfold classifyAwaited
    split
    · exact I.endMiss _ _ h
    · split
      · exact h
      · split
        · exact I.endMiss _ _ h
        · exact I.endGood _ _ h
  · exact h
  · exact h

theorem Storable.restartChannel {s : State} (c : ChannelId) (h : Holds P s) :
    Holds P (restartChannel c s) := by
  unfold Machine.restartChannel
  dsimp only
  have h2 := I.channelNotice (s := { s with alc := (abandonTransaction c s.alc).set c (restarted (s.alc.get c)) }) c .restart .none h
  split
  · exact I.completeLong _ _ _ _ h2
  · exact h2

/-! ### The State Controller -/

theorem Storable.changeState {s : State} (new : OpState) (reason : StateReason) (h : Holds P s) :
    Holds P (changeState new reason s) := by
  unfold Machine.changeState
  dsimp only
  have h1 := I.offerNotice (s := { s with sc := s.sc.enter new }) .state new.code (u32 s.sc.op.code) (u32 reason.code) h
  split
  · exact I.raiseSummary _ h1
  · exact h1

theorem Storable.startCalibration {s : State} (target : OpState) (h : Holds P s) :
    Holds P (startCalibration target s) := by
  unfold Machine.startCalibration
  exact I.changeState _ _ h

theorem Storable.failCalibration {s : State} (why : CalFailure) (target : OpState) (reason : StateReason) (h : Holds P s) :
    Holds P (failCalibration why target reason s) := by
  unfold Machine.failCalibration
  have h2 := I.offerNotice .cal why.code
    (u32 (Machine.completeLong .calibration .calFailed why.code [u32 s.sc.calCount] s).sc.calCount)
    (u32 (Machine.completeLong .calibration .calFailed why.code [u32 s.sc.calCount] s).sc.priorState.code)
    (I.completeLong .calibration .calFailed why.code [u32 s.sc.calCount] h)
  exact I.changeState _ _ h2

theorem Storable.succeedCalibration {s : State} (avg : CalSums) (h : Holds P s) :
    Holds P (succeedCalibration avg s) := by
  unfold Machine.succeedCalibration
  have h1 : Holds P { s with fcu := s.fcu.calibrated avg } := h
  have h3 := I.offerNotice .cal 0 (pack16 (toS16 avg.roll) (toS16 avg.yaw)) (toS32 (initialLean avg.ay avg.az))
    (I.completeLong .calibration .ok 0
      [pack16 (toS16 avg.roll) (toS16 avg.yaw), pack16 (toS16 (initialLean avg.ay avg.az)) 0] h1)
  exact I.changeState _ _ h3

theorem Storable.calibrationFrame {s : State} (p : Snapshot) (h : Holds P s) :
    Holds P (calibrationFrame p s) := by
  unfold Machine.calibrationFrame
  split
  · exact I.failCalibration _ _ _ h
  · split
    · exact I.failCalibration _ _ _ h
    · have h1 : ∀ sc, Holds P { s with sc := sc } := fun _ => h
      dsimp only
      split
      · exact h1 _
      · split
        · exact I.failCalibration _ _ _ (h1 _)
        · exact I.succeedCalibration _ (h1 _)

theorem Storable.recoverFromLimp {s : State} (report : LimpReport) (h : Holds P s) :
    Holds P (recoverFromLimp report s) := by
  unfold Machine.recoverFromLimp
  have h1 : ∀ sc, Holds P { s with sc := sc } := fun _ => h
  dsimp only
  split
  · exact I.changeState _ _ (h1 _)
  · exact h1 _

theorem Storable.takeReport {s : State} (c : Computation) (r : Results) (h : Holds P s) :
    Holds P (takeReport c r s) := by
  unfold Machine.takeReport
  have h1 : ∀ sc, Holds P { s with sc := sc } := fun _ => h
  dsimp only
  split
  · exact h1 _
  · exact h1 _
  · split
    · exact I.calibrationFrame _ (h1 _)
    · exact h1 _
  · split
    · exact I.changeState _ _ (h1 _)
    · exact h1 _
  · exact I.recoverFromLimp _ (h1 _)

theorem Storable.goDormant {s : State} (h : Holds P s) : Holds P (goDormant s) := by
  unfold Machine.goDormant
  split
  · exact h
  · exact I.failCalibration _ _ _ h
  all_goals exact I.changeState _ _ h

theorem Storable.goStandby {s : State} (r : Request) (h : Holds P s) : Holds P (goStandby r s) := by
  unfold Machine.goStandby
  split
  · split
    · exact I.finish _ _ _ _ (I.changeState _ _ h)
    · exact I.finish _ _ _ _ h
  · exact I.finish _ _ _ _ h
  · exact I.finish _ _ _ _ h
  · exact I.finish _ _ _ _ (I.changeState _ _ h)
  · exact I.finish _ _ _ _ (I.changeState _ _ h)

theorem Storable.goActive {s : State} (r : Request) (h : Holds P s) : Holds P (goActive r s) := by
  have hc : Holds P (clearEscalation s) := h
  unfold Machine.goActive
  split
  · split
    · exact I.finish _ _ _ _ (I.changeState _ _ hc)
    · exact I.finish _ _ _ _ h
  · exact I.finish _ _ _ _ h
  · exact I.finish _ _ _ _ (I.changeState _ _ hc)
  · exact I.finish _ _ _ _ hc
  · split
    · exact I.finish _ _ _ _ h
    · exact I.finish _ _ _ _ (I.changeState _ _ hc)

theorem Storable.goCalibrate {s : State} (r : Request) (h : Holds P s) : Holds P (goCalibrate r s) := by
  have ha : Holds P (acceptCalibration r s) := I.stayTaken _ _ (I.startCalibration _ h)
  unfold Machine.goCalibrate
  split
  · exact I.finish _ _ _ _ h
  · split
    · exact ha
    · exact I.finish _ _ _ _ h
    · exact I.finish _ _ _ _ h
    all_goals
      split
      · exact I.finish _ _ _ _ h
      · exact ha

theorem Storable.abandonCalibration {s : State} (r : Request) (h : Holds P s) :
    Holds P (abandonCalibration r s) := by
  unfold Machine.abandonCalibration
  split
  · exact I.finish _ _ _ _ (I.failCalibration _ _ _ h)
  · exact I.finish _ _ _ _ h

/-! ### The frame cycle -/

theorem Storable.startFrame {s : State} (h : Holds P s) : Holds P (startFrame s) := by
  unfold Machine.startFrame
  split
  · have key : ∀ t : State, Holds P t → Holds P (beginComputation (takeComputation s) t) := fun t ht => ht
    exact key _ (I.ageLanes (s := { s with ft := s.ft.tick }) h)
  · exact h

theorem Storable.makeDeposits {s : State} (c : Computation) (r : Results) (h : Holds P s) :
    Holds P (makeDeposits c r s) := by
  unfold Machine.makeDeposits
  split
  · exact h
  · exact I.deposit _ _ (I.deposit _ _ (I.deposit _ _ h))

theorem Storable.verdictNotice {s : State} (old new : Byte) (k : Nat) (h : Holds P s) :
    Holds P (verdictNotice old new k s) := by
  unfold Machine.verdictNotice
  split
  · exact h
  · exact I.offerNotice _ _ _ _ h

theorem Storable.unitNotices {s : State} (c : Computation) (r : Results) (h : Holds P s) :
    Holds P (unitNotices c r s) := by
  have h1 : Holds P (escalationNotice c r s) := by
    unfold Machine.escalationNotice
    split
    · exact I.offerNotice _ _ _ _ h
    · exact h
  have h2 : Holds P (gradeNotice r (escalationNotice c r s)) := by
    unfold Machine.gradeNotice
    split
    · exact h1
    · exact I.offerNotice _ _ _ _ h1
  have h3 : Holds P (verdictNotices s.fcu.prevVerdicts r.verdicts (gradeNotice r (escalationNotice c r s))) := by
    simp only [verdictNotices, List.range, List.range.loop, List.foldl_cons, List.foldl_nil]
    exact I.verdictNotice _ _ _ (I.verdictNotice _ _ _ (I.verdictNotice _ _ _ (I.verdictNotice _ _ _ (I.verdictNotice _ _ _
      (I.verdictNotice _ _ _ (I.verdictNotice _ _ _ (I.verdictNotice _ _ _ h2)))))))
  exact h3

theorem Storable.publish {s : State} (c : Computation) (r : Results) (h : Holds P s) : Holds P (publish c r s) := by
  have key : ∀ body : List Word, P (((s.ram.writeWord pageWord (s.fcu.publications + 1)).writeWords (pageWord + 1) body).writeWord
      pageWord (s.fcu.publications + 2)) (s.xp.raise liveNewBit) := fun body => I.raised _ (I.word _ _ (I.words _ _ (I.word _ _ h)))
  unfold Machine.publish
  generalize pageBody c r s = body
  exact key body

theorem Storable.recordCapture {s : State} (c : Computation) (r : Results) (h : Holds P s) :
    Holds P (recordCapture c r s) := by
  unfold Machine.recordCapture
  split
  · exact h
  · split
    · exact h
    · rename_i k _ _
      have h1 : ∀ (ws : List Word) (f : FrameUnit),
          Holds P { s with ram := s.ram.writeWords (captureWord k.next) ws, fcu := f } := fun ws _ => I.words ws _ h
      dsimp only
      split
      · exact h1 _ _
      · exact I.completeLong _ _ _ _ (h1 _ _)

theorem Storable.completeInFlight {s : State} (h : Holds P s) : Holds P (completeInFlight s) := by
  unfold Machine.completeInFlight
  split
  · exact I.recordCapture _ _ (I.publish _ _ (I.takeReport _ _ (I.unitNotices _ _
      (I.makeDeposits (s := { s with fcu := s.fcu.step1 _ }) _ _ h))))
  · exact h

theorem Storable.requestCapture {s : State} (r : Request) (h : Holds P s) :
    Holds P (requestCapture r s) := by
  unfold Machine.requestCapture
  split
  · exact I.finish _ _ _ _ h
  · split
    · exact I.finish _ _ _ _ h
    · exact I.stayTaken (s := { s with
        fcu := { s.fcu with capture := some ⟨r.slot, r.param1.toNat, 0, none, s.fcu.inFlight.isSome⟩ } }) _ _ h

theorem Storable.abandonRunningCapture {s : State} (r : Request) (h : Holds P s) :
    Holds P (abandonRunningCapture r s) := by
  unfold Machine.abandonRunningCapture
  split
  · exact I.finish _ _ _ _ h
  · exact I.finish _ _ _ _ (I.completeLong (s := { s with fcu := { s.fcu with capture := none } }) _ _ _ _ h)

/-! ### Records, tables and resets -/

theorem Storable.applyAdopt {s : State} (r : Request) (h : Holds P s) : Holds P (applyAdopt r s) := by
  have h1 : Holds P (adoptNamed r.param1 s) := by
    have key : ∀ t : State, Holds P t → Holds P (ifNamed r.param1 2 Machine.adoptLanes t) := by
      intro t ht
      unfold ifNamed
      split
      · exact I.adoptLanes ht
      · exact ht
    unfold adoptNamed
    have h2 : Holds P (ifNamed r.param1 1 adoptLoadRecord (ifNamed r.param1 0 adoptModeRecord s)) := by
      unfold ifNamed
      split <;> split <;> exact h
    have h3 := key _ h2
    unfold ifNamed at h3 ⊢
    split <;> exact h3
  exact I.finish _ _ _ _ h1

theorem Storable.applyClear {s : State} (r : Request) (h : Holds P s) : Holds P (applyClear r s) := by
  have h1 : Holds P (clearNamed r.param1 s) := by
    unfold clearNamed
    have h2 : Holds P (ifNamed r.param1 2 clearCounts (ifNamed r.param1 1 clearLanes (ifNamed r.param1 0 clearStickyFlags s))) := by
      unfold ifNamed
      split <;> split <;> split <;> exact h
    have key : ∀ t : State, Holds P t → Holds P (ifNamed r.param1 3 clearHeader t) := by
      intro t ht
      unfold ifNamed
      split
      · exact I.word headerWord _ ht
      · exact ht
    exact key _ h2
  exact I.finish _ _ _ _ h1

theorem Storable.applyLoad {s : State} (r : Request) (h : Holds P s) : Holds P (applyLoad r s) := by
  unfold Machine.applyLoad
  dsimp only
  split
  · exact I.finish _ _ _ _ h
  · generalize candidate s.ram s.table (loadRange r) = table
    exact I.finish (s := { s with table := table }) _ _ _ _ h

theorem Storable.advanceDump {s : State} (h : Holds P s) : Holds P (advanceDump s) := by
  unfold Machine.advanceDump
  split
  · exact I.words (imageSpan s.table _ _) _ h
  · exact h

theorem Storable.cutCapture {s : State} (h : Holds P s) : Holds P (cutCapture s) := by
  unfold Machine.cutCapture
  split
  · split
    · exact h
    · rename_i c k _ _ _
      have key : ∀ ws : List Word, P (s.ram.writeWords (captureWord k.next) ws) s.xp := fun ws => I.words ws _ h
      exact key _
  · exact h

theorem Storable.softResetMemory {m : Memory} {p : ExchangePort} (e : RequestEngine) (h : P m p) : P (softResetMemory m e) p := by
  unfold Machine.softResetMemory
  extract_lets m1 m2 m3
  have h3 : P m3 p := I.words _ _ (I.words _ _ (I.words _ _ h))
  have key : ∀ (slots : List Nat) (m : Memory), P m p → P (slots.foldl (resetSlot e) m) p := by
    intro slots
    induction slots with
    | nil => exact fun m hm => hm
    | cons k rest ih =>
      intro m hm
      refine ih _ ?_
      unfold resetSlot
      split
      · exact I.word _ _ (I.word _ _ (I.words _ _ hm))
      · exact hm
  exact key _ _ h3

theorem Storable.softReset {s : State} (h : Holds P s) : Holds P (softReset s) :=
  I.port (m := Machine.softResetMemory (Machine.cutCapture (Machine.advanceDump s)).ram (Machine.cutCapture (Machine.advanceDump s)).rqe) resetDoneBit 0
    (I.softResetMemory _ (I.cutCapture (I.advanceDump h)))

theorem Storable.attention {s : State} (h : Holds P s) : Holds P (attention s) := by
  unfold Machine.attention
  split
  · exact h
  · exact I.continueScan (s := { s with rqe := { s.rqe with scan := some ⟨s.rqe.cursor, 0⟩ } }) h

theorem Storable.applyWaiting {s : State} (r : Request) (h : Holds P s) : Holds P (applyWaiting r s) := by
  unfold Machine.applyWaiting
  split
  · exact I.applyAdopt _ h
  · split
    · exact I.applyClear _ h
    · split
      · exact I.applyLoad _ h
      · split
        · exact h
        · exact h

/-- What storing words and setting the port keep, every command keeps, if power-on reset gives it. -/
theorem Storable.exec (hreset : Holds P State.reset) {c : Instr} {s t : State} (ht : exec c s = .next t)
    (h : Holds P s) : Holds P t := by
  have gap : ∀ {f : Request → State → State}, (∀ r {t : State}, Holds P t → Holds P (f r t)) →
      ∀ r {t : State}, Holds P t → Holds P (Machine.gapRequest f r t) :=
    fun hf r _ hp => Storable.gapRequest r hp hf
  have adopt : ∀ r {t : State}, Holds P t → Holds P (executeAdopt r t) := by
    intro r t hp
    unfold executeAdopt
    split
    · exact gap (fun r _ hp => I.applyAdopt r hp) r hp
    · exact I.applyAdopt r hp
  have clear : ∀ r {t : State}, Holds P t → Holds P (executeClear r t) := by
    intro r t hp
    unfold executeClear
    split
    · exact gap (fun r _ hp => I.applyClear r hp) r hp
    · exact I.applyClear r hp
  have load : ∀ r {t : State}, Holds P t → Holds P (executeLoad r t) := by
    intro r t hp
    unfold executeLoad
    split
    · exact I.finish _ _ _ _ hp
    · exact gap (fun r _ hp => I.applyLoad r hp) r hp
  have stop : ∀ r {t : State}, Holds P t → Holds P (requestStop r t) := by
    intro r t hp
    unfold requestStop
    split
    · exact I.finish (s := stopNow _ t) _ _ _ _ hp
    · exact I.finish (s := stopNow _ t) _ _ _ _ hp
    · exact I.stayTaken (s := stopLater _ t) _ _ hp
    · exact I.finish _ _ _ _ hp
    · exact I.finish _ _ _ _ hp
  have resume : ∀ r {t : State}, Holds P t → Holds P (requestResume r t) := by
    intro r t hp
    unfold requestResume
    split
    · exact I.finish (s := setChannel _ _ t) _ _ _ _ hp
    · exact I.finish _ _ _ _ hp
  cases c <;> (injection ht with ht; subst ht)
  case powerOnReset => exact hreset
  case softReset =>
    split
    · exact I.softReset h
    · exact h
  case attentionArrival => exact I.attention h
  case summaryWrite => exact I.port _ _ h
  case summaryEnableWrite => exact I.port _ _ h
  case registerWriteIgnored => exact h
  case hostRamWrite => exact I.word _ _ (I.advanceDump h)
  case laneIdleDetected => split <;> exact h
  case laneWordArrival =>
    split
    · exact I.updateLane _ _ h
    · exact h
  case frameStart => exact I.startFrame h
  case computationComplete => exact I.completeInFlight h
  case refusedKind => exact Storable.withTaken h fun r _ hp => I.finish _ _ _ _ hp
  case adoptMode => exact Storable.withTaken h adopt
  case adoptLoad => exact Storable.withTaken h adopt
  case adoptLane => exact Storable.withTaken h adopt
  case adoptLink => exact Storable.withTaken h adopt
  case gapRequestApply =>
    split
    · exact I.applyWaiting _ h
    · exact h
  case tableLoad => exact Storable.withTaken h load
  case tableDump => exact Storable.withTaken h (gap fun r _ hp => hp)
  case tableDumpDone =>
    split
    · rename_i r written _
      have key : Holds P { s with ram := dumpSpan s.ram s.table written imageWords } := I.words _ _ h
      exact I.finish _ _ _ _ key
    · exact h
  case modeGoDormant => exact Storable.withTaken h fun r _ hp => I.finish _ _ _ _ (I.goDormant hp)
  case modeGoStandby => exact Storable.withTaken h fun r _ hp => I.goStandby r hp
  case modeGoActive => exact Storable.withTaken h fun r _ hp => I.goActive r hp
  case modeGoCalibrate => exact Storable.withTaken h fun r _ hp => I.goCalibrate r hp
  case abandonTransition => exact Storable.withTaken h fun r _ hp => I.abandonCalibration r hp
  case abandonCapture => exact Storable.withTaken h fun r _ hp => I.abandonRunningCapture r hp
  case clearSticky => exact Storable.withTaken h clear
  case clearLane => exact Storable.withTaken h clear
  case clearChannelCounts => exact Storable.withTaken h clear
  case clearNoticeHeader => exact Storable.withTaken h clear
  case channelStop => exact Storable.withTaken h stop
  case channelResume => exact Storable.withTaken h resume
  case channelRestart => exact Storable.withTaken h fun r _ hp => I.finish _ _ _ _ (I.restartChannel _ hp)
  case capture => exact Storable.withTaken h fun r _ hp => I.requestCapture r hp
  case linkGrant => exact h
  case messageSent => split <;> exact h
  case linkIdleDetected => split <;> exact h
  case ackAddressDiscard => split <;> exact h
  case ackArrival =>
    split
    · exact I.classifyAck (s := setLinkRx _ _ s) _ _ h
    · exact h
  case replyTimeout =>
    split
    · exact I.endMiss _ _ h
    · exact h
    · exact h
  case laneStartEdge => split <;> exact h
  case laneFalseStart => split <;> exact h
  case linkStartEdge => split <;> exact h
  case linkFalseStart => split <;> exact h
  case linkCharacterArrival =>
    split
    · unfold takeCharacter
      split
      · exact h
      · split
        · split <;> exact h
        · exact h
    · exact h
  case refusedRange => exact Storable.withTaken h fun r _ hp => I.finish _ _ _ _ hp

end Sys2Proof.Machine
end

