-- ==== Sys2Proof/Tests/Slice0.lean ====
section
/-! SUPPORT. The model's own tests: ill-formed commands that WellFormed refuses, one step of each command with results from the
worked sequences and tables of spec/, and for every statement with hypotheses a concrete state that meets them all. -/

namespace Sys2Proof.Tests

open Sys2Proof.Machine Sys2Proof.Safety

/-! ### What the tests are built with -/

/-- The part after one command. -/
def after (c : Instr) (s : State) : State :=
  match exec c s with
  | .next t => t
  | _ => s

/-- A lane word with good parity and a good stop bit (R190). -/
def laneWord (marker : Bool) (tag : Nat) (value : Half) : BitVec 23 :=
  let w : BitVec 23 := BitVec.ofNat 23 (4194304 + 32 * value.toNat + 4 * tag + 2 * bitOf marker)
  if onesIn w 1 20 % 2 = 1 then w ||| 0x200000 else w

/-- A link character with a good stop bit. -/
def character (b : Byte) : BitVec 10 := 0x200#10 ||| (b.setWidth 10 <<< 1)

/-- A request, with tag 7. -/
def request (slot : Nat) (kind : Byte) (param1 param2 : Word) : Request := ⟨slot, kind, 7, param1, param2, List.replicate 28 0⟩

/-- The part with a request in execution, its slot marked TAKEN. -/
def executing (r : Request) (p : Phase) (s : State) : State :=
  { s with
    ram := s.ram.writeWord (slotWord r.slot) (firstWord markTaken r.kind r.tag)
    rqe := { s.rqe with scan := some ⟨0, r.slot + 1⟩, execution := some ⟨r, p⟩ } }

/-- The part with a request just taken. -/
def taken (r : Request) (s : State) : State := executing r .taken s

/-- The part in an operating state, calibration valid unless DORMANT. -/
def inState (op : OpState) (s : State) : State :=
  { s with sc := { s.sc with op := op }, fcu := { s.fcu with calValid := op != .dormant } }

/-- The part calibrating from STANDBY, its request in slot 0. -/
def calibrating (count : Nat) (s : State) : State :=
  { s with
    sc := { s.sc with op := .calibrating, prior := some .standby, thenTarget := some .active, calCount := count }
    fcu := { s.fcu with calValid := true }
    rqe := { s.rqe with long := [⟨0, kindModeGo, 7, .calibration⟩] } }

/-- A lane whose receiver is in a state and whose assembler holds a burst. -/
def withLane (l : LaneId) (f : Lane → Lane) (s : State) : State := { s with lanes := s.lanes.set l (f (s.lanes.get l)) }

/-- A lane's receiver in RECEIVE, with a burst open or none. -/
def receiving (l : LaneId) (burst : Option (List Half)) (s : State) : State :=
  withLane l (fun x => { x with rx := .receive, burst := burst }) s

/-- The link receiver in a state, an address byte held or none. -/
def linkReceiver (rx : RxState) (address : Option Byte) (s : State) : State := { s with alc := { s.alc with rx := rx, address := address } }

/-- A message to BRAKE of frame 8001. -/
def brakeMessage : Message := ⟨.computed, 8001, .brake 9000 180⟩

/-- A transaction of BRAKE with toggle 1 (the sequence of 08_the_actuator_link.md 8.9). -/
def brakeTransaction (window : Option Nat) (abandoned : Bool) : Transaction :=
  ⟨.brake, brakeMessage, true, messageBytes .brake true brakeMessage, 2, 6, window, abandoned⟩

/-- The link with BRAKE's transaction, in a link state. -/
def withBrake (link : LinkState) (t : Transaction) (x : Channel) (s : State) : State :=
  { s with alc := { s.alc with link := link, outstanding := some t, brake := x, rx := if link = .sending then .off else .receive } }

/-- BRAKE OUTSTANDING after two misses (8.9). -/
def brakeOutstanding : Channel := { resetChannel with state := .outstanding, toggle := true, health := .missing, misses := 2, last := .timeout }

/-- A lane of a snapshot. -/
def view (state : LaneState) (values : List Int) : LaneView := ⟨values.map toS16, 0, state, true⟩

/-- The computation of 05_reference_speed_and_the_traction_regulator.md 5.10. -/
def workedCase : Computation where
  frame := 5000
  dtMs := 2
  stateAtStart := .active
  snapshot := ⟨view .live [1500, 2000, -2000, 0, 9000], view .live [2500], view .live [2700], view .live [700], view .live [0]⟩
  mode := defaultMode
  load := { defaultLoad with cls := .pillionLuggage }
  leanPrev := 4100000
  biasRoll := 20
  biasYaw := -10
  rPrev := 40
  observer := ⟨0, 0, 1⟩
  causes := 0
  calFrame := false

/-- The part with a computation in flight. -/
def computing (c : Computation) (s : State) : State := { s with fcu := { s.fcu with inFlight := some c } }

/-- The computation of 5.10 with another snapshot, all at rest and LIVE: a calibration frame. -/
def restingCase : Computation :=
  { workedCase with
    calFrame := true
    snapshot := ⟨view .live [18, -9, 0, 350, 9780], view .live [0], view .live [0], view .live [100], view .live [0]⟩ }

/-- A running capture that has written `next` of `count` records. -/
def capturing (count next : Nat) (skip : Bool) (s : State) : State :=
  { s with
    fcu := { s.fcu with capture := some ⟨1, count, next, if next = 0 then none else some 9, skip⟩ }
    rqe := { s.rqe with long := [⟨1, kindCapture, 7, .capture⟩] } }

/-! ### WellFormed refuses what its rows exclude -/

theorem test_ill_formed_soft_reset : (Instr.softReset 0xFFFFFFFE).wellFormed = false := by decide

theorem test_ill_formed_ignored_write_to_summary : (Instr.registerWriteIgnored 2 5).wellFormed = false := by decide

theorem test_ill_formed_ignored_write_to_control : (Instr.registerWriteIgnored 4 1).wellFormed = false := by decide

theorem test_ill_formed_lane_idle : (Instr.laneIdleDetected .imu 367).wellFormed = false := by decide

theorem test_ill_formed_lane_word : (Instr.laneWordArrival .imu 1 1 0).wellFormed = false := by decide

theorem test_ill_formed_link_idle : (Instr.linkIdleDetected 159).wellFormed = false := by decide

theorem test_ill_formed_address_discard : (Instr.ackAddressDiscard 19).wellFormed = false := by decide

theorem test_ill_formed_ack_start : (Instr.ackArrival 0x201 0x201 0x200).wellFormed = false := by decide

theorem test_ill_formed_ack_stop : (Instr.ackArrival 0x000 0x200 0x000).wellFormed = false := by decide

theorem test_ill_formed_lane_edge : (Instr.laneStartEdge .rear true true).wellFormed = false := by decide

theorem test_ill_formed_lane_false_start : (Instr.laneFalseStart .rear true false false).wellFormed = false := by decide

theorem test_ill_formed_link_edge : (Instr.linkStartEdge false false).wellFormed = false := by decide

theorem test_ill_formed_link_false_start : (Instr.linkFalseStart false false true).wellFormed = false := by decide

theorem test_ill_formed_link_character : (Instr.linkCharacterArrival 0x001 0x201 0x200).wellFormed = false := by decide

theorem test_well_formed_boundaries :
    (Instr.laneIdleDetected .imu 368).wellFormed = true ∧ (Instr.linkIdleDetected 160).wellFormed = true ∧
      (Instr.ackAddressDiscard 20).wellFormed = true ∧ (Instr.registerWriteIgnored 4 0xFFFFFFFE).wellFormed = true ∧
      (Instr.registerWriteIgnored 5 1).wellFormed = true := by decide

/-! ### The port and the resets -/

/-- R181: the identity block. -/
theorem test_power_on_identity :
    (after .powerOnReset (calibrating 3 State.reset)).ram.readWord 2 = 0x120 ∧
      (after .powerOnReset (calibrating 3 State.reset)).sc.op = .dormant := by decide

set_option maxRecDepth 4096 in
/-- R172: a TAKEN slot becomes DONE with RESET. -/
theorem test_soft_reset_taken_slot :
    (after (.softReset 1) (taken (request 3 4 3 2) State.reset)).ram.readWord (slotWord 3) = 0x00070403 ∧
      (after (.softReset 1) (taken (request 3 4 3 2) State.reset)).ram.readWord (slotWord 3 + 1) = 34 := by decide

/-- R162: a POSTED slot is taken, the cursor after it. -/
theorem test_attention_takes_posted :
    (after (.attentionArrival 0) { State.reset with ram := State.reset.ram.writeWord (slotWord 15) 0x00070801 }).rqe.cursor = 0 ∧
      (after (.attentionArrival 0) { State.reset with ram := State.reset.ram.writeWord (slotWord 15) 0x00070801 }).ram.readWord
        (slotWord 15) = 0x00070802 := by decide

/-- R157, R158. -/
theorem test_summary_write_clears : (after (.summaryWrite 0x40) State.reset).xp = ⟨0, 0, false⟩ := by decide

/-- R158: RESET_DONE is set after reset. -/
theorem test_enable_asserts_alert : (after (.summaryEnableWrite 0xFFFFFFFF) State.reset).xp = ⟨0x40, 0x7F, true⟩ := by decide

theorem test_ignored_write : after (.registerWriteIgnored 0 5) State.reset = State.reset := rfl

/-- R155: a word in its place, a write beyond 8 KiB ignored. -/
theorem test_ram_write :
    (after (.hostRamWrite 0x7FF 0x12345678) State.reset).ram.readByte 0x1FFD = 0x56 ∧
      (after (.hostRamWrite 0x800 1) State.reset).ram = State.reset.ram := by decide

/-- R181: a register read of two words at IDENT: eight clocks of zero, 0x00010620 lowest byte first, then ATTENTION's 0. -/
theorem test_read_transfer_registers :
    (spiReadTransfer 0x4000 2 State.reset).1 = [0, 0x20, 0x06, 0x01, 0x00, 0, 0, 0, 0] := by decide

/-- R181, R155: a RAM read of two words at 4095: beyond 8 KiB 0, then the identity block's first word. -/
theorem test_read_transfer_wraps :
    (spiReadTransfer 0x0FFF 2 State.reset).1 = [0, 0, 0, 0, 0, 0x20, 0x06, 0x01, 0x00] := by decide

/-! ### The lanes -/

theorem test_lane_idle_ends_wait : ((after (.laneIdleDetected .engine 368) State.reset).lanes.get .engine).rx = .hunt := by decide

theorem test_lane_edge_ignored_in_idle_wait : after (.laneStartEdge .imu true false) State.reset = State.reset := by decide

theorem test_lane_false_start :
    ((after (.laneFalseStart .imu true true false) (receiving .imu none State.reset)).lanes.get .imu).rx = .hunt := by decide

/-- 1.5, event 5: a marker word of tag 0 while a burst is open. -/
theorem test_lane_word_short :
    ((after (.laneWordArrival .imu (laneWord true 0 1510) (laneWord true 0 1510) 0)
      (receiving .imu (some [1500, 2000, 0xF830]) State.reset)).lanes.get .imu).burst = some [1510] ∧
    ((after (.laneWordArrival .imu (laneWord true 0 1510) (laneWord true 0 1510) 0)
      (receiving .imu (some [1500, 2000, 0xF830]) State.reset)).lanes.get .imu).flags.short = true := by decide

/-- 1.5, event 9: the burst complete. -/
theorem test_lane_burst_accepted :
    ((after (.laneWordArrival .imu (laneWord false 4 9500) (laneWord false 4 9500) (laneWord false 4 9500))
      (receiving .imu (some [1510, 2005, 0xF83A, 1200]) State.reset)).lanes.get .imu).slot = [1510, 2005, 0xF83A, 1200, 9500] := by
  decide

/-! ### The frame cycle -/

/-- 1.5: a frame start makes the age of a LIVE lane 2, which exceeds E = 1: HELD. -/
theorem test_frame_start_holds :
    ((after .frameStart (withLane .imu (fun x => { x with state := .live, age := 1 }) State.reset)).lanes.get .imu).state = .held := by
  decide

/-- 5.10. -/
theorem test_worked_case_lean : (compute workedCase defaultTable).lean.leanFine = 4102945 := by decide

/-- 5.10, 5.11: v_ref and the corrected rear speed. -/
theorem test_worked_case_speeds :
    (compute workedCase defaultTable).speeds.vRef = some 2448 ∧ (compute workedCase defaultTable).speeds.rear = some 2616 := by decide

/-- 2.10, frame 100: an escalation in ACTIVE enters LIMP. -/
theorem test_completion_escalates :
    (after .computationComplete (computing { workedCase with
      snapshot := { workedCase.snapshot with imu := view .live [0, -32768, 0, 0, 9800] } } (inState .active State.reset))).sc.op
      = .limp := by decide

set_option maxRecDepth 8192 in
/-- 8.9, event 10: the deposit of a completion on a FREE link is granted at once, and the live page of that completion shows BRAKE
OUTSTANDING with toggle 0. -/
theorem test_completion_grants :
    (after .computationComplete (computing { workedCase with frame := 8003 } (inState .active { State.reset with
      alc := { State.reset.alc with engine := { resetChannel with state := .stopped } } }))).alc.link = .sending ∧
    (after .computationComplete (computing { workedCase with frame := 8003 } (inState .active { State.reset with
      alc := { State.reset.alc with engine := { resetChannel with state := .stopped } } }))).ram.readWord 147 = 0x00000002 := by
  decide

/-! ### Requests -/

theorem test_refused_kind :
    (after .refusedKind (taken (request 2 9 0 0) State.reset)).ram.readWord (slotWord 2 + 1) = 0x00090010 := by decide

/-- R167: a bit above bit 3 of the mask is the first check. -/
theorem test_refused_range_mask :
    (after .refusedRange (taken (request 2 1 16 0) State.reset)).ram.readWord (slotWord 2 + 1) = 0x00010011 := by decide

/-- R53, R37: a zero mode record clamps v_kin_min to 100 and frame_period to 1. -/
theorem test_adopt_mode_clamps :
    (after .adoptMode (taken (request 0 1 1 0) State.reset)).fcu.mode.vKinMin = 100 ∧
      (after .adoptMode (taken (request 0 1 1 0) State.reset)).ft.period = 1 := by decide

/-- R105: a zero load record clamps its eight factors to 128. -/
theorem test_adopt_load_clamps :
    (after .adoptLoad (taken (request 0 1 2 0) State.reset)).fcu.load.trailer = ⟨128, 128⟩ ∧
      (after .adoptLoad (taken (request 0 1 2 0) State.reset)).ram.readWord (slotWord 0 + 4) = 0x00000800 := by decide

/-- R16: a lane disabled. -/
theorem test_adopt_lane_disables :
    ((after .adoptLane (taken (request 0 1 4 0) State.reset)).lanes.get .front).rx = .off ∧
      ((after .adoptLane (taken (request 0 1 4 0) State.reset)).lanes.get .front).state = .silent := by decide

/-- 9.7: link_rate 1, link_tmo 0x28, miss_limit 3, intervals 1, 1, 4. -/
theorem test_adopt_link :
    (after .adoptLink (taken (request 14 1 8 0)
      { State.reset with ram := State.reset.ram.writeWords 104 [0x01032802, 0x0401] })).alc.record.multiplier = 31 := by decide

/-- R25: a waiting CLEAR of the sticky flags applied in the gap. -/
theorem test_gap_applies_clear :
    (after .gapRequestApply (executing (request 0 6 1 0) .waitingGap
      { State.reset with fcu := { State.reset.fcu with sticky := 0x81 } })).fcu.sticky = 0 := by decide

/-- 4.9: P(6, 2) with torque ceiling 420 breaks the order against P(7, 2) at position 26. -/
theorem test_table_load_refused_order :
    firstViolation { defaultTable with points := defaultTable.points.set 26 ⟨50, 420, 3600, 162, 40⟩ } = some 26 := by decide

/-- R67: first above last is the second check. -/
theorem test_table_load_refused_range :
    (after .tableLoad (taken (request 0 2 1 0x0102) State.reset)).ram.readWord (slotWord 0 + 1) = 0x00020011 := by decide

theorem test_table_dump_waits :
    (after .tableDump (taken (request 3 3 0 0) (computing workedCase State.reset))).rqe.execution
      = some ⟨request 3 3 0 0, .waitingGap⟩ := by decide

/-- R75, R76: the last words of the image. P(0, 0) stands at 0x300: slip target 120, torque ceiling 1024. -/
theorem test_dump_image : imageOf defaultTable 0 = 0x04000078 ∧ imageOf defaultTable 237 = 0x76197966 := by decide

/-- R119: LIMP to DORMANT is always OK. -/
theorem test_mode_go_dormant :
    (after .modeGoDormant (taken (request 0 4 0 0) (inState .limp State.reset))).sc.op = .dormant := by decide

theorem test_mode_go_standby_uncalibrated :
    (after .modeGoStandby (taken (request 0 4 1 0) State.reset)).ram.readWord (slotWord 0 + 1) = 23 := by decide

/-- 2.10: the accepted MODE_GO to ACTIVE clears count and latch. -/
theorem test_mode_go_active_clears :
    (after .modeGoActive (taken (request 0 4 2 0) { inState .active State.reset with
      fcu := { State.reset.fcu with escCount := 3, escLatch := true } })).fcu.escCount = 0 := by decide

theorem test_mode_go_calibrate :
    (after .modeGoCalibrate (taken (request 0 4 3 2) State.reset)).sc.op = .calibrating ∧
      (after .modeGoCalibrate (taken (request 0 4 3 2) State.reset)).ram.readWord (slotWord 0) = 0x00070402 := by decide

set_option maxRecDepth 4096 in
/-- 7.8: an ABANDON of a calibration ends it in its prior state. -/
theorem test_abandon_transition :
    (after .abandonTransition (taken (request 1 5 0 0) (calibrating 100 State.reset))).sc.op = .standby ∧
      (after .abandonTransition (taken (request 1 5 0 0) (calibrating 100 State.reset))).ram.readWord (slotWord 0 + 1)
        = 0x00050020 := by decide

theorem test_abandon_capture :
    (after .abandonCapture (taken (request 2 5 1 0) (capturing 4 3 false State.reset))).ram.readWord (slotWord 1 + 1)
      = 0x00030002 := by decide

theorem test_clear_sticky_waits :
    (after .clearSticky (taken (request 0 6 1 0) (computing workedCase State.reset))).rqe.execution
      = some ⟨request 0 6 1 0, .waitingGap⟩ := by decide

theorem test_clear_lane :
    ((after .clearLane (taken (request 0 6 2 0) (withLane .rear (fun x => { x with errorCount := 9 }) State.reset))).lanes.get
      .rear).errorCount = 0 := by decide

theorem test_clear_channel_counts :
    (after .clearChannelCounts (taken (request 0 6 4 0) { State.reset with alc := { State.reset.alc with stray := 3 } })).alc.stray
      = 0 := by decide

/-- R177, R183: the header's first word keeps the write count. -/
theorem test_clear_notice_header :
    (after .clearNoticeHeader (taken (request 0 6 8 0) { State.reset with nw := ⟨5, 7, true⟩ })).ram.readWord 16 = 5 := by decide

theorem test_channel_stop_waits :
    (after .channelStop (taken (request 0 7 2 0)
      (withBrake .awaiting (brakeTransaction (some 48) false) brakeOutstanding State.reset))).alc.brake.state = .stopping := by decide

theorem test_channel_resume_refused :
    (after .channelResume (taken (request 0 7 1 1) State.reset)).ram.readWord (slotWord 0 + 1) = 19 := by decide

/-- 8.9, event 8. -/
theorem test_channel_restart_reserves :
    (after .channelRestart (taken (request 0 7 2 2)
      (withBrake .awaiting (brakeTransaction (some 48) false) brakeOutstanding State.reset))).alc.link = .reserved ∧
    (after .channelRestart (taken (request 0 7 2 2)
      (withBrake .awaiting (brakeTransaction (some 48) false) brakeOutstanding State.reset))).alc.brake = resetChannel := by decide

theorem test_capture_accepted :
    (after .capture (taken (request 5 8 4 0) State.reset)).fcu.capture = some ⟨5, 4, 0, none, false⟩ := by decide

/-! ### The actuator link -/

set_option maxRecDepth 4096 in
/-- R142: BRAKE before ENGINE; 8.9, event 2. -/
theorem test_link_grant_order :
    (after .linkGrant { State.reset with alc := { State.reset.alc with
      engine := { resetChannel with state := .pending, slot := some ⟨.none, 8001, .torque 1024⟩ }
      brake := { resetChannel with state := .pending, slot := some brakeMessage, toggle := true } } }).alc.outstanding
      = some (brakeTransaction none false) := by decide

set_option maxRecDepth 4096 in
/-- 8.9, event 3: a 48 µs window. -/
theorem test_message_sent_window :
    (after .messageSent (withBrake .sending (brakeTransaction none false) brakeOutstanding State.reset)).alc.outstanding
      = some (brakeTransaction (some 48) false) := by decide

theorem test_link_idle :
    (after (.linkIdleDetected 160) (linkReceiver .idleWait none State.reset)).alc.rx = .hunt := by decide

theorem test_link_edge :
    (after (.linkStartEdge true false) (linkReceiver .hunt none State.reset)).alc.rx = .receive := by decide

theorem test_link_false_start :
    (after (.linkFalseStart true false true) (linkReceiver .receive (some 6) State.reset)).alc.address = some 6 := by decide

theorem test_address_discard :
    (after (.ackAddressDiscard 20) (linkReceiver .hunt (some 6) State.reset)).alc.address = none := by decide

theorem test_link_character_held :
    (after (.linkCharacterArrival (character 6) (character 6) (character 6)) (linkReceiver .receive none State.reset)).alc.address
      = some 6 := by decide

/-- R136, written bit time by bit time from the right: start low, 0x06 least significant first, stop high. -/
theorem test_character_bits : characterOf 0x06 = 0b1_00000110_0 ∧ characterOf 0xE1 = 0b1_11100001_0 := by decide

/-- R192's example: the check byte of an acknowledgement with address byte 0x06 is 0xE1. 8.9, event 5: on a FREE link, a stray. -/
theorem test_ack_stray :
    crc8 [0x06] = 0xE1 ∧
      (after (.ackArrival (character 0xE1) (character 0xE1) (character 0xE1)) (linkReceiver .receive (some 6) State.reset)).alc.stray
        = 1 := by decide

/-- R138 by hand: the register 0xE1 after 0x06, combined with 0x41, is 0xA0, and eight shifts make it 0x69. -/
theorem test_crc_second_byte : crcByte 0xE1 0x41 = 0x69 := by decide

/-- R2: two of three centre samples decide a bit. -/
theorem test_majority : majority 0b1100 0b1010 0b1001 = (0b1000 : BitVec 4) ∧ majority 0b0110 0b0101 0b0011 = (0b0111 : BitVec 4) := by
  decide

/-- R145: BRAKE's own acknowledgement, toggle 1, ACCEPTED. -/
theorem test_ack_good :
    (after (.ackArrival (character 0xE1) (character 0xE1) (character 0xE1))
      (linkReceiver .receive (some 6) (withBrake .awaiting (brakeTransaction (some 48) false) brakeOutstanding State.reset))).alc.brake
      = { resetChannel with last := .good } := by decide

/-- 8.9, event 4. -/
theorem test_reply_timeout :
    (after .replyTimeout (withBrake .awaiting (brakeTransaction (some 48) false) brakeOutstanding State.reset)).alc.brake
      = { resetChannel with toggle := true, misses := 3, health := .lost, last := .timeout } := by decide

/-- R76: the dump's last word written, the request OK. -/
theorem test_dump_done :
    (after .tableDumpDone (executing (request 3 3 0 0) (.dumping 253) State.reset)).ram.readWord (slotWord 3) = 0x00070303 := by decide

/-! ### Concrete states that meet the hypotheses of the statements

Each theorem shows, for one statement (or one clause of it), a state and operands at a boundary of their ranges that meet all
its hypotheses together. -/

/-- BRAKE awaiting its acknowledgement, the address byte 0x06 held (8.9). -/
def awaitingAck (address : Byte) : State :=
  linkReceiver .receive (some address) (withBrake .awaiting (brakeTransaction (some 48) false) brakeOutstanding State.reset)

/-- A dump that has written `w` words, its request in slot 15. -/
def dumpingAt (w : Nat) : State := executing (request 15 3 0 0) (.dumping w) State.reset

theorem witness_step :
    ({ State.reset with pending := [.frameStart] } : State).pending = .frameStart :: [] ∧ State.reset.pending = [] := by decide

theorem witness_soft_reset_ignored : (0xFFFFFFFE : Word).getLsbD 0 = false := by decide

theorem witness_soft_reset :
    (1 : Word).getLsbD 0 = true ∧ (taken (request 15 4 3 2) State.reset).ram.wf = true ∧
      (∀ r w, (taken (request 15 4 3 2) State.reset).rqe.execution ≠ some ⟨r, .dumping w⟩) ∧
      (taken (request 15 4 3 2) State.reset).fcu.inFlight = none ∧
      slotMark (taken (request 15 4 3 2) State.reset).ram 15 = markTaken :=
  ⟨by decide, by decide, fun _ _ h => (by cases h), by decide, by decide⟩

/-- The three ways a slot was taken, at slot 15: in execution, on the long-running list twice (the later counts), and by the host's own
mark. -/
theorem witness_taken_with :
    ((taken (request 15 4 3 2) State.reset).rqe.execution.map fun x => x.request.slot) = some 15 ∧
      (({ State.reset.rqe with long := [⟨15, 4, 1, .calibration⟩, ⟨15, 7, 2, .stop .brake⟩] } : RequestEngine).long =
        [⟨15, 4, 1, .calibration⟩] ++ ⟨15, 7, 2, .stop .brake⟩ :: []) ∧
      State.reset.rqe.execution = none ∧ (∀ x ∈ State.reset.rqe.long, x.slot ≠ 15) := by decide

theorem witness_soft_reset_computing :
    (1 : Word).getLsbD 0 = true ∧ (computing workedCase State.reset).ram.wf = true ∧
      (∀ r w, (computing workedCase State.reset).rqe.execution ≠ some ⟨r, .dumping w⟩) ∧
      recordsNow (computing workedCase State.reset).fcu = false :=
  ⟨by decide, by decide, fun _ _ h => (by cases h), by decide⟩

theorem witness_soft_reset_cuts_dump :
    (1 : Word).getLsbD 0 = true ∧ (dumpingAt 255).ram.wf = true ∧
      (dumpingAt 255).rqe.execution = some ⟨request 15 3 0 0, .dumping 255⟩ ∧ 255 ≤ 255 := by decide

theorem witness_soft_reset_cuts_record :
    (1 : Word).getLsbD 0 = true ∧ (capturing 32 31 false (computing workedCase State.reset)).ram.wf = true ∧
      (∀ r w, (capturing 32 31 false (computing workedCase State.reset)).rqe.execution ≠ some ⟨r, .dumping w⟩) ∧
      (capturing 32 31 false (computing workedCase State.reset)).fcu.inFlight = some workedCase ∧
      (capturing 32 31 false (computing workedCase State.reset)).fcu.capture = some ⟨1, 32, 31, some 9, false⟩ :=
  ⟨by decide, by decide, fun _ _ h => (by cases h), by decide, by decide⟩

/-- A dump at its last but one word and a record in writing into the last entry, together. -/
theorem witness_soft_reset_cuts_both :
    (executing (request 15 3 0 0) (.dumping 255) (capturing 32 31 false (computing workedCase State.reset))).ram.wf = true ∧
      (executing (request 15 3 0 0) (.dumping 255) (capturing 32 31 false (computing workedCase State.reset))).rqe.execution
        = some ⟨request 15 3 0 0, .dumping 255⟩ ∧
      (executing (request 15 3 0 0) (.dumping 255) (capturing 32 31 false (computing workedCase State.reset))).fcu.capture
        = some ⟨1, 32, 31, some 9, false⟩ ∧
      (executing (request 15 3 0 0) (.dumping 255) (capturing 32 31 false (computing workedCase State.reset))).fcu.inFlight
        = some workedCase ∧
      slotMark (executing (request 15 3 0 0) (.dumping 255) (capturing 32 31 false (computing workedCase State.reset))).ram 15
        = markTaken := by decide

theorem witness_attention :
    (taken (request 15 4 3 2) State.reset).rqe.scan.isSome = true ∧ State.reset.rqe.scan = none ∧
      State.reset.rqe.execution = none := by decide

/-- The board with slot 15 POSTED, a MODE_GO with tag 7, and no other slot. -/
def posted15 : State := { State.reset with ram := (State.reset.ram.writeWord 928 0x00070401).writeWord 959 0xA1B2C3D4 }

/-- The take of the last position of a scan, at slot 15, whose first word lies at 0x0E80. -/
theorem witness_attention_take :
    posted15.rqe.scan = none ∧ posted15.rqe.execution = none ∧ posted15.ram.wf = true ∧ (0xE80 : Nat) = 0x700 + 128 * 15 ∧
      15 = (posted15.rqe.cursor + 15) % 16 ∧ posted15.ram.readByte 0xE80 = 1 ∧
      ∀ i, i < 15 → posted15.ram.readByte (0x700 + 128 * ((posted15.rqe.cursor + i) % 16)) ≠ 1 := by decide

/-- R187: the copy holds kind, tag and the last payload word of slot 15 (0x0EFC); TAKEN stands in the mark byte. -/
theorem test_attention_takes_slot_fields :
    ((after (.attentionArrival 0) posted15).rqe.execution.map fun x =>
        (x.request.slot, x.request.kind, x.request.tag, x.request.payload.getD 27 0)) = some (15, 4, 7, 0xA1B2C3D4) ∧
      (after (.attentionArrival 0) posted15).ram.readWord 928 = 0x00070402 ∧
      (after (.attentionArrival 0) posted15).rqe.cursor = 0 := by decide

theorem witness_host_ram_write :
    State.reset.ram.wf = true ∧ (∀ r w, State.reset.rqe.execution ≠ some ⟨r, .dumping w⟩) ∧ (dumpingAt 0).ram.wf = true ∧
      (dumpingAt 0).rqe.execution = some ⟨request 15 3 0 0, .dumping 0⟩ :=
  ⟨by decide, fun _ _ h => (by cases h), by decide, by decide⟩

/-- Headers of a write and of reads of both spaces, a read at the image's first and last word, and every register write's case at
its own address, the reset bit set and clear. -/
theorem witness_host_reads :
    (0xCFFF : Half).getLsbD 15 = true ∧ (0x4FFF : Half).getLsbD 15 = false ∧ (0x4FFF : Half).getLsbD 14 = true ∧
      (0x0FFF : Half).getLsbD 14 = false ∧ (0x0FFF : Half).extractLsb' 0 12 = (4095 : BitVec 12) ∧
      (0x3FFF : Half).getLsbD 15 = false ∧ ([1, 2, 3] : List Byte).length < 4 ∧
      (dumpingAt 255).ram.wf = true ∧ (dumpingAt 255).rqe.execution = some ⟨request 15 3 0 0, .dumping 255⟩ ∧
      imageWord + 0 ≤ (192 : BitVec 12).toNat ∧ (447 : BitVec 12).toNat = imageWord + 255 ∧
      hostReadRam 4095 State.reset = (0, State.reset) ∧ registerWrite 4 1 = .softReset 1 ∧
      registerWrite 4 0xFFFFFFFE = .registerWriteIgnored 4 0xFFFFFFFE ∧ registerWrite 4095 1 = .registerWriteIgnored 4095 1 := by
  decide

theorem witness_lane_receiver :
    368 ≤ 368 ∧ 2 ≤ bitOf true + bitOf false + bitOf true ∧ (State.reset.lanes.get .imu).rx = .idleWait ∧
      ((receiving .imu none State.reset).lanes.get .imu).rx = .receive ∧ (State.reset.lanes.get .imu).rx ≠ .receive := by decide

theorem witness_lane_word_failed_twice :
    ((receiving .imu (some [5]) State.reset).lanes.get .imu).rx = .receive ∧
      laneWordFields (majority 0x000002 0x000002 0x000002) = ⟨false, true, 0, 0, false, false⟩ := by decide

theorem witness_lane_word_failed_parity :
    ((receiving .imu (some [5]) State.reset).lanes.get .imu).rx = .receive ∧
      laneWordFields (majority 0x400002 0x400002 0x400002) = ⟨false, true, 0, 0, false, true⟩ := by decide

theorem witness_lane_word_failed_stop :
    ((receiving .imu (some [5]) State.reset).lanes.get .imu).rx = .receive ∧
      laneWordFields (majority 0x200002 0x200002 0x200002) = ⟨false, true, 0, 0, true, false⟩ := by decide

theorem witness_lane_assembly_marker :
    ((receiving .imu (some [5]) State.reset).lanes.get .imu).rx = .receive ∧
      laneWordFields (majority (laneWord true 0 9) (laneWord true 0 9) (laneWord true 0 9)) = ⟨false, true, 0, 9, true, true⟩ ∧
      completedBurst .imu ((receiving .imu (some [5]) State.reset).lanes.get .imu) ⟨false, true, 0, 9, true, true⟩ = none ∧
      completedBurst .imu ((receiving .imu none State.reset).lanes.get .imu) ⟨false, true, 0, 9, true, true⟩ = none := by decide

theorem witness_lane_assembly_tags :
    laneWordFields (majority (laneWord true 7 9) (laneWord true 7 9) (laneWord true 7 9)) = ⟨false, true, 7, 9, true, true⟩ ∧
      completedBurst .front ((receiving .front none State.reset).lanes.get .front) ⟨false, true, 7, 9, true, true⟩ = none ∧
      laneWordFields (majority (laneWord false 3 9) (laneWord false 3 9) (laneWord false 3 9)) = ⟨false, false, 3, 9, true, true⟩ ∧
      completedBurst .imu ((receiving .imu none State.reset).lanes.get .imu) ⟨false, false, 3, 9, true, true⟩ = none ∧
      completedBurst .imu ((receiving .imu (some [1, 2, 3]) State.reset).lanes.get .imu) ⟨false, false, 3, 9, true, true⟩ = none ∧
      completedBurst .imu ((receiving .imu (some [1, 2]) State.reset).lanes.get .imu) ⟨false, false, 3, 9, true, true⟩ = none := by
  decide

/-- The IMU's fifth word; a wheel speed at its limit of 10000. -/
theorem witness_lane_burst_accepted :
    laneWordFields (majority (laneWord false 4 9) (laneWord false 4 9) (laneWord false 4 9)) = ⟨false, false, 4, 9, true, true⟩ ∧
      completedBurst .imu ((receiving .imu (some [1, 2, 3, 4]) State.reset).lanes.get .imu) ⟨false, false, 4, 9, true, true⟩
        = some [1, 2, 3, 4, 9] ∧
      laneWordFields (majority (laneWord true 0 10000) (laneWord true 0 10000) (laneWord true 0 10000))
        = ⟨false, true, 0, 10000, true, true⟩ ∧
      completedBurst .front ((receiving .front none State.reset).lanes.get .front) ⟨false, true, 0, 10000, true, true⟩
        = some [10000] ∧
      ((receiving .front none State.reset).lanes.get .front).burst = none ∧
      Plausible .imu ((receiving .imu (some [1, 2, 3, 4]) State.reset).lanes.get .imu) 1 ∧
      Plausible .front ((receiving .front none State.reset).lanes.get .front) 10000 :=
  ⟨by decide, by decide, by decide, by decide, by decide, trivial, by decide, fun h => (by cases h)⟩

/-- One above the limit, and a trailer code of 2. -/
theorem witness_lane_burst_rejected :
    laneWordFields (majority (laneWord true 0 10001) (laneWord true 0 10001) (laneWord true 0 10001))
        = ⟨false, true, 0, 10001, true, true⟩ ∧
      completedBurst .front ((receiving .front none State.reset).lanes.get .front) ⟨false, true, 0, 10001, true, true⟩
        = some [10001] ∧
      ¬Plausible .front ((receiving .front none State.reset).lanes.get .front) 10001 ∧
      ¬Plausible .trailer ((receiving .trailer none State.reset).lanes.get .trailer) 2 :=
  ⟨by decide, by decide, fun h => absurd h.1 (by decide), fun h => (by cases h with
    | inl h => exact absurd h (by decide)
    | inr h => exact absurd h (by decide))⟩

theorem witness_lane_report : State.reset.ram.wf = true := by decide

/-- A lane at reset is consistent, so an adoption of other settings has its four clauses' premises. -/
theorem witness_lane_adoption :
    LaneConsistent .front (resetLane .front) ∧ LaneConsistent .trailer { resetLane .trailer with
      settings := ⟨false, 2, 50, 250, none⟩, rx := .off } := by
  constructor
  · refine ⟨by decide, by decide, by decide, by decide, by decide, by decide, fun _ h => (by cases h), by decide, by decide,
      by decide, by decide, by decide, fun limit h => ?_⟩
    cases h
    decide
  · exact ⟨by decide, by decide, by decide, by decide, by decide, by decide, fun _ h => (by cases h), by decide, by decide,
      by decide, by decide, by decide, fun _ h => (by cases h)⟩

theorem witness_frame_start :
    (computing workedCase State.reset).fcu.inFlight.isSome = true ∧ State.reset.fcu.inFlight = none := by decide

theorem witness_completion :
    (computing workedCase (inState .active State.reset)).fcu.inFlight = some workedCase ∧
      (computing workedCase (inState .active State.reset)).ram.wf = true ∧
      ¬((computing workedCase (inState .active State.reset)).sc.op = .calibrating ∧ workedCase.calFrame = true) ∧
      State.reset.fcu.inFlight = none ∧ (computing workedCase State.reset).sc.op = .dormant := by decide

/-- A full recovery count with the latch clear. -/
theorem witness_limp_recovers :
    (computing workedCase { inState .limp State.reset with sc := { (inState .limp State.reset).sc with recovery := 499 } }).fcu.inFlight
        = some workedCase ∧
      (inState .limp State.reset).fcu.mode.recoveryFrames ≤ min 65535 (499 + 1) ∧
      (inState .limp State.reset).fcu.escLatch = false := by decide

/-- The part with R at 40, ACTIVE entered since the last frame start or not. -/
def staying (entered : Bool) : State :=
  { inState .active State.reset with
    sc := { (inState .active State.reset).sc with activeEntered := entered }
    fcu := { (inState .active State.reset).fcu with reduction := 40 } }

/-- R99: the first computation of a stay in ACTIVE has R_prev 0, the next the stored R (R85). -/
theorem test_stay_begins_without_reduction :
    ((after .frameStart (staying true)).fcu.inFlight.map fun c => c.rPrev) = some 0 ∧
      ((after .frameStart (staying false)).fcu.inFlight.map fun c => c.rPrev) = some 40 ∧
      (after .frameStart (staying true)).sc.activeEntered = false ∧ (after .frameStart (staying true)).fcu.reduction = 40 := by decide

/-- R126, R127: a calibration from ACTIVE that is abandoned begins a stay. -/
theorem test_abandon_begins_stay :
    let s := taken (request 15 5 0 0) { calibrating 3 State.reset with
      sc := { (calibrating 3 State.reset).sc with prior := some .active } }
    (after .abandonTransition s).sc.op = .active ∧ (after .abandonTransition s).sc.activeEntered = true := by decide

/-- An entry to ACTIVE, and a frame start that uses its mark up. -/
theorem witness_stay :
    (taken (request 15 4 2 0) (inState .standby State.reset)).sc.op ≠ .active ∧
      (after .modeGoActive (taken (request 15 4 2 0) (inState .standby State.reset))).sc.op = .active ∧
      (staying true).sc.activeEntered = true ∧ (staying true).fcu.inFlight = none ∧ (staying true).sc.op = .active := by decide

theorem witness_control_calibrating :
    ControlConsistent (calibrating 255 State.reset).sc (calibrating 255 State.reset).fcu.calValid := by
  refine ⟨by decide, by decide, by decide, ?_⟩
  exact ⟨Or.inr ⟨Or.inl rfl, rfl⟩, Or.inr rfl, by decide, by decide, by decide, by decide, by decide⟩

/-- The 256th frame: 255 counted, with sums whose az average is the limit of 4904 or far from it. -/
theorem witness_calibration_frame :
    (computing restingCase (calibrating 255 State.reset)).fcu.inFlight = some restingCase ∧
      (computing restingCase (calibrating 255 State.reset)).sc.op = .calibrating ∧ restingCase.calFrame = true ∧
      calLanesLive restingCase.snapshot = true ∧ calMoving restingCase.snapshot = false ∧
      (computing restingCase (calibrating 255 State.reset)).fcu.capture = none ∧
      (computing restingCase (calibrating 255 State.reset)).ram.wf = true ∧
      ((computing restingCase (calibrating 255 State.reset)).rqe.long.find? fun x => x.owner == .calibration)
        = some ⟨0, kindModeGo, 7, .calibration⟩ := by decide

/-- 256 frames of az 9780, as 7.9 accumulates them: the average is at least 4904. -/
theorem witness_calibration_succeeds :
    (calibrating 255 { State.reset with sc := { State.reset.sc with sums := ⟨4590, -2295, 89250, 2493900⟩ } }).sc.calCount = 255 ∧
      4904 ≤ ((2493900 : Int) + restingCase.snapshot.imu.signed 4).tdiv 256 := by decide

/-- A completion that is a calibration frame, for what every completion leaves. -/
theorem witness_completion_calibrating :
    (computing restingCase (calibrating 255 State.reset)).fcu.inFlight = some restingCase ∧
      (computing restingCase (calibrating 255 State.reset)).sc.op = .calibrating ∧ restingCase.calFrame = true ∧
      (computing restingCase (calibrating 255 State.reset)).fcu.sticky = 0 := by decide

theorem witness_capture_record :
    (capturing 32 31 false (computing workedCase State.reset)).fcu.inFlight = some workedCase ∧
      (capturing 32 31 false (computing workedCase State.reset)).fcu.capture = some ⟨1, 32, 31, some 9, false⟩ ∧
      CaptureConsistent ⟨1, 32, 31, some 9, false⟩ ∧ CaptureConsistent ⟨1, 1, 0, none, true⟩ ∧
      (∀ e ∈ (capturing 32 31 false (computing workedCase State.reset)).rqe.long, e.slot < 16) ∧
      ((capturing 32 31 false (computing workedCase State.reset)).rqe.long.find? fun x => x.owner == .capture)
        = some ⟨1, kindCapture, 7, .capture⟩ :=
  ⟨by decide, by decide, by unfold CaptureConsistent; decide, by unfold CaptureConsistent; decide, by decide, by decide⟩

/-- Calibration frames that fail for a lane, for motion at its limit, and for attitude at the 256th frame, a capture running in
another slot. -/
theorem witness_calibration_answers :
    let s := computing restingCase { calibrating 255 State.reset with
      fcu := { (calibrating 255 State.reset).fcu with capture := some ⟨1, 32, 31, some 9, false⟩ }
      rqe := { State.reset.rqe with long := [⟨0, kindModeGo, 7, .calibration⟩, ⟨1, kindCapture, 7, .capture⟩] } }
    s.ram.wf = true ∧ s.sc.op = .calibrating ∧ s.sc.calCount < 256 ∧
      (s.rqe.long.find? fun x => x.owner == .calibration) = some ⟨0, kindModeGo, 7, .calibration⟩ ∧
      (s.rqe.long.find? fun x => x.owner == .capture) = some ⟨1, kindCapture, 7, .capture⟩ ∧
      (view .held [0]).state ≠ .live ∧ 50 ≤ (view .live [50]).unsigned 0 ∧ 500 ≤ ((view .live [-500]).signed 0).natAbs ∧
      (255 * 4903 + (4904 : Int)).tdiv 256 < 4904 := by decide

/-- A calibration and a capture whose requests stand in one slot, the capture far from its last record. -/
theorem witness_calibration_shares_slot :
    let s := computing restingCase { calibrating 255 State.reset with
      fcu := { (calibrating 255 State.reset).fcu with capture := some ⟨0, 32, 3, some 9, false⟩ }
      rqe := { State.reset.rqe with long := [⟨0, kindModeGo, 7, .calibration⟩, ⟨0, kindCapture, 7, .capture⟩] } }
    (s.rqe.long.find? fun x => x.owner == .capture) = some ⟨0, kindCapture, 7, .capture⟩ ∧
      s.fcu.capture = some ⟨0, 32, 3, some 9, false⟩ ∧ 3 + 1 < 32 := by decide

/-- A computation with no capture running. -/
theorem witness_capture_none :
    (computing workedCase State.reset).fcu.inFlight = some workedCase ∧ (computing workedCase State.reset).fcu.capture = none ∧
      (computing workedCase State.reset).ram.wf = true ∧ (∀ e ∈ (computing workedCase State.reset).rqe.long, e.slot < 16) := by decide

/-- A completion in each operating state in which step 4 can change the state. -/
theorem witness_completion_notices :
    (computing workedCase (inState .active State.reset)).fcu.inFlight = some workedCase ∧
      (computing workedCase (inState .limp State.reset)).sc.op = .limp ∧
      (computing restingCase (calibrating 255 State.reset)).sc.op = .calibrating ∧ restingCase.calFrame = true ∧
      (computing workedCase (inState .active State.reset)).ram.wf = true ∧
      (∀ e ∈ (computing restingCase (calibrating 255 State.reset)).rqe.long, e.slot < 16) := by decide

theorem witness_table_reads : 6500 ≤ 6500 ∧ 6000 % 500 = 0 ∧ 6499 < 6500 ∧ 9216 ≤ 9216 ∧ 8 < 9 ∧ 1023 < 1024 ∧ 0 < (4904 : Int) := by
  decide

/-- The default table reads its formulas. -/
theorem defaultTable_point_eq (b g : Nat) (hb : b ≤ 13) (hg : g ≤ 3) : defaultTable.point b g = defaultPoint b g := by
  interval_cases b <;> interval_cases g <;> rfl

theorem defaultTable_row_eq (b : Nat) (hb : b ≤ 13) : defaultTable.row b = defaultRow b := by
  interval_cases b <;> rfl

theorem witness_table_in_range : TableInRange defaultTable := by
  constructor
  · intro b g hb hg
    rw [defaultTable_point_eq b g hb hg]
    simp only [defaultPoint]
    omega
  · intro b hb
    rw [defaultTable_row_eq b hb]
    interval_cases b <;> decide

theorem witness_table_ordered : TableOrdered defaultTable := by
  refine ⟨fun b g hb hg => ?_, fun b g hb hg => ?_, fun b hb => ?_⟩
  · rw [defaultTable_point_eq _ g (by omega) hg, defaultTable_point_eq b g (by omega) hg]
    simp only [defaultPoint]
    omega
  · rw [defaultTable_point_eq b _ hb (by omega), defaultTable_point_eq b g hb (by omega)]
    simp only [defaultPoint]
    omega
  · rw [defaultTable_row_eq _ (by omega), defaultTable_row_eq b (by omega)]
    interval_cases b <;> decide

theorem witness_ceilings :
    ModeInRange workedCase.mode ∧ FactorsInRange workedCase.load.solo ∧ FactorsInRange workedCase.load.pillion ∧
      FactorsInRange workedCase.load.pillionLuggage ∧ FactorsInRange workedCase.load.trailer ∧ workedCase.observer.observed ≤ 3 := by
  unfold ModeInRange FactorsInRange
  decide

/-- 6.10, frames 1020 and 1021, in the computation of 5.10: from R_prev 0 an episode start, from R_prev above 0 engaged. -/
theorem test_computation_observes :
    (compute { workedCase with rPrev := 0, observer := ⟨86, 0, 1⟩ } defaultTable).observer = ⟨182, 0, 1⟩ ∧
      (compute { workedCase with observer := ⟨182, 0, 1⟩ } defaultTable).observer = ⟨182, 0, 1⟩ := by decide

/-- 6.10, frame 1040: 172 and 96 reach 256. -/
theorem witness_observer :
    ModeInRange defaultMode ∧ ObserverInRange ⟨172, 0, 0⟩ ∧ 256 ≤ 172 + defaultMode.episodeWeight ∧ ObserverInRange ⟨1, 4999, 1⟩ ∧
      defaultMode.restoreFrames ≤ min 65535 (4999 + 1) := by
  unfold ModeInRange ObserverInRange
  decide

theorem witness_causes : workedCase.causes = 0 := by decide

/-! #### Requests: each taken from slot 15, the last -/

theorem witness_taken (r : Request) (s : State) : (taken r s).rqe.execution = some ⟨r, .taken⟩ := rfl

theorem witness_taken_wf :
    (taken (request 15 9 0 0) State.reset).ram.wf = true ∧ (request 15 9 0 0).slot < 16 ∧ 8 < (request 15 9 0 0).kind.toNat ∧
      (request 15 0 0 0).kind = 0 ∧ (taken (request 15 8 0 0) State.reset).rqe.execution = some ⟨request 15 8 0 0, .taken⟩ := by decide

/-- Each refused range at its first refused value: masks 16 and 0, target 4, then-target 3, channel 4 and 0, action 3. -/
theorem witness_refused_range :
    (taken (request 15 1 16 0) State.reset).ram.wf = true ∧ 15 < (request 15 1 16 0).param1.toNat ∧
      15 < (request 15 6 0x80000000 0).param1.toNat ∧ (request 15 6 0 0).param1 = 0 ∧ 3 < (request 15 4 4 0).param1.toNat ∧
      (request 15 4 3 3).param2 ≠ 1 ∧ (request 15 4 3 3).param2 ≠ 2 ∧ 1 < (request 15 5 2 0).param1.toNat ∧
      3 < (request 15 7 4 0).param1.toNat ∧ (request 15 7 0 0).param1.toNat = 0 ∧ 2 < (request 15 7 3 3).param2.toNat := by decide

/-- The records clause reads a state whose lanes agree with their settings: right after reset (witness_lanes). -/
theorem witness_records_read : within 128 256 0 = 128 ∧ within 128 256 65535 = 256 ∧ within 1 16 50 = 16 := by decide

/-- A violation of the last comparison: rear factors of Q(12) and Q(13), position 68. -/
theorem witness_order_pair :
    213 < 214 ∧ (orderPair { defaultTable with rows := defaultTable.rows.set 13 ⟨31078, 32768⟩ } 213).1 = 68 ∧
      (orderPair { defaultTable with rows := defaultTable.rows.set 13 ⟨31078, 32768⟩ } 213).2.1
        < (orderPair { defaultTable with rows := defaultTable.rows.set 13 ⟨31078, 32768⟩ } 213).2.2 := by decide

theorem witness_adopt :
    (taken (request 15 1 12 0) State.reset).ram.wf = true ∧ (request 15 1 12 0).param1.toNat < 16 ∧
      (request 15 1 12 0).param1.getLsbD 0 = false ∧ (request 15 1 12 0).param1.getLsbD 1 = false ∧
      (request 15 1 12 0).param1.getLsbD 2 = true ∧ (request 15 1 12 0).param1.getLsbD 3 = true ∧
      (request 15 1 15 0).param1.toNat < 16 ∧ (request 15 1 15 0).param1.getLsbD 0 = true ∧
      (taken (request 15 1 15 0) (computing workedCase State.reset)).fcu.inFlight.isSome = true ∧
      (taken (request 15 1 15 0) State.reset).fcu.inFlight = none := by decide

theorem witness_gap_request :
    (executing (request 15 6 1 0) .waitingGap State.reset).rqe.execution = some ⟨request 15 6 1 0, .waitingGap⟩ ∧
      (executing (request 15 6 1 0) .waitingGap State.reset).fcu.inFlight = none ∧
      (executing (request 15 6 1 0) .waitingGap State.reset).ram.wf = true ∧
      (executing (request 15 1 15 0) .waitingGap State.reset).rqe.execution = some ⟨request 15 1 15 0, .waitingGap⟩ ∧
      (executing (request 15 2 15 0x010D00) .waitingGap State.reset).rqe.execution = some ⟨request 15 2 15 0x010D00, .waitingGap⟩ ∧
      (executing (request 15 3 0 0) .waitingGap State.reset).rqe.execution = some ⟨request 15 3 0 0, .waitingGap⟩ ∧
      (computing workedCase State.reset).fcu.inFlight.isSome = true := by decide

/-- A table load of every point whose candidate breaks the order, and one of no point that changes nothing. -/
theorem witness_gap_load :
    firstViolation (candidate State.reset.ram { defaultTable with points := defaultTable.points.set 26 ⟨50, 420, 3600, 162, 40⟩ }
      (loadRange (request 15 2 8 0x0D0D))) = some 26 ∧
    firstViolation (candidate State.reset.ram defaultTable (loadRange (request 15 2 8 0x0D0D))) = none := by decide

/-- The four checks of R67 at their first refused values, and a load that passes them. -/
theorem witness_table_load :
    (taken (request 15 2 15 0x0D00) State.reset).ram.wf = true ∧ 15 < (request 15 2 16 0).param1.toNat ∧
      (byteOf (request 15 2 1 0x0102).param2 1).toNat < (byteOf (request 15 2 1 0x0102).param2 0).toNat ∧
      13 < (byteOf (request 15 2 1 0x0E00).param2 1).toNat ∧ (byteOf (request 15 2 0 0x0D00).param2 2 != 0) = false ∧
      (byteOf (request 15 2 0 0x010D00).param2 2 != 0) = true ∧ (byteOf (request 15 2 15 0x0D00).param2 1).toNat = 13 := by decide

theorem witness_table_dump :
    (taken (request 15 3 0 0) State.reset).rqe.execution = some ⟨request 15 3 0 0, .taken⟩ ∧ (dumpingAt 256).ram.wf = true ∧
      (dumpingAt 256).rqe.execution = some ⟨request 15 3 0 0, .dumping 256⟩ ∧
      (∀ r w, State.reset.rqe.execution ≠ some ⟨r, .dumping w⟩) :=
  ⟨by decide, by decide, by decide, fun _ _ h => (by cases h)⟩

theorem witness_mode_go :
    (taken (request 15 4 0 0) (calibrating 255 State.reset)).ram.wf = true ∧
      (∀ e ∈ (taken (request 15 4 0 0) (calibrating 255 State.reset)).rqe.long, e.slot < 16) ∧
      (taken (request 15 4 1 0) (inState .standby State.reset)).ram.wf = true ∧ (request 15 4 1 0).param1 = 1 ∧
      (taken (request 15 4 2 0) (inState .limp State.reset)).sc.op = .limp ∧ (request 15 4 2 0).param1 = 2 ∧
      (request 15 4 3 1).param1 = 3 ∧ (request 15 4 3 1).param2 = 1 ∧ (request 15 4 3 2).param2 = 2 := by decide

theorem witness_abandon :
    (taken (request 15 5 0 0) (calibrating 255 State.reset)).sc.prior = some .standby ∧
      (taken (request 15 5 1 0) (capturing 32 31 false State.reset)).fcu.capture = some ⟨1, 32, 31, some 9, false⟩ ∧
      (∀ e ∈ (taken (request 15 5 1 0) (capturing 32 31 false State.reset)).rqe.long, e.slot < 16) ∧
      (taken (request 15 5 1 0) (capturing 32 31 false State.reset)).ram.wf = true ∧
      (taken (request 15 5 0 0) (calibrating 255 State.reset)).ram.wf = true ∧ (request 15 5 1 0).param1 = 1 := by decide

theorem witness_clear :
    (taken (request 15 6 15 0) State.reset).ram.wf = true ∧ (request 15 6 15 0).param1.toNat < 16 ∧ (request 15 6 15 0).param1 ≠ 0 ∧
      (request 15 6 15 0).param1.getLsbD 0 = true ∧ (request 15 6 15 0).param1.getLsbD 1 = true ∧
      (request 15 6 15 0).param1.getLsbD 2 = true ∧ (request 15 6 15 0).param1.getLsbD 3 = true := by decide

theorem witness_channel :
    (request 15 7 3 0).param1.toNat = ChannelId.trailer.station ∧ (request 15 7 2 1).param1.toNat = ChannelId.brake.station ∧
      (request 15 7 1 2).param1.toNat = ChannelId.engine.station ∧ (taken (request 15 7 2 2) (awaitingAck 6)).ram.wf = true ∧
      (∀ e ∈ (taken (request 15 7 2 2) (awaitingAck 6)).rqe.long, e.slot < 16) := by decide

theorem witness_capture :
    (taken (request 15 8 33 0) State.reset).ram.wf = true ∧ 32 < (request 15 8 33 0).param1.toNat ∧
      ¬(32 < (request 15 8 32 0).param1.toNat) ∧
      (∃ e ∈ (taken (request 15 8 32 0) (capturing 32 31 false State.reset)).rqe.long, e.owner = .capture) := by decide

/-! #### The link -/

theorem witness_grant :
    let a : LinkController := { State.reset.alc with trailer := { resetChannel with state := .pending, slot := some brakeMessage } }
    a.link = .free ∧ (a.get .trailer).state = .pending ∧ (a.get .trailer).slot = some brakeMessage ∧ a.brake.state ≠ .pending ∧
      a.engine.state ≠ .pending ∧ State.reset.alc.brake.state ≠ .pending ∧ (awaitingAck 6).alc.link ≠ .free := by decide

theorem witness_sent :
    (withBrake .sending (brakeTransaction none true) resetChannel State.reset).alc.link = .sending ∧
      State.reset.alc.link ≠ .sending := by decide

theorem witness_link_receiver :
    160 ≤ 160 ∧ 20 ≤ 20 ∧ 2 ≤ bitOf false + bitOf true + bitOf true ∧ (majority 0x1FE 0x1FE 0x3FF : BitVec 10).getLsbD 0 = false := by
  decide

theorem witness_ack_unjudged :
    (character 0xE1).getLsbD 0 = false ∧ (character 0xE1).getLsbD 9 = true ∧
      (linkReceiver .receive (some 6) State.reset).alc.link = .free ∧ (linkReceiver .hunt (some 6) State.reset).alc.rx ≠ .receive ∧
      (withBrake .reserved (brakeTransaction (some 48) true) resetChannel State.reset).alc.link = .reserved ∧
      (character (crc8 [5])).extractLsb' 1 8 = crc8 [5] ∧ ((5 : Byte).extractLsb' 0 2).toNat ≠ ChannelId.brake.station := by decide

theorem witness_ack_judged :
    (awaitingAck 6).alc.rx = .receive ∧ (awaitingAck 6).alc.address = some 6 ∧ (awaitingAck 6).alc.link = .awaiting ∧
      (awaitingAck 6).ram.wf = true ∧ (∀ e ∈ (awaitingAck 6).rqe.long, e.slot < 16) ∧
      (character 0xE1).extractLsb' 1 8 = crc8 [6] ∧ ((6 : Byte).extractLsb' 0 2).toNat = ChannelId.brake.station ∧
      (character 0xE0).extractLsb' 1 8 ≠ crc8 [6] ∧ (6 : Byte).getLsbD 2 = true ∧ (2 : Byte).getLsbD 2 = false := by decide

set_option maxRecDepth 4096 in
theorem witness_ack_transaction : (awaitingAck 6).alc.outstanding = some (brakeTransaction (some 48) false) := by decide

theorem witness_reply_timeout :
    (awaitingAck 6).alc.link = .awaiting ∧ (awaitingAck 6).alc.outstanding.isSome = true ∧
      (withBrake .reserved (brakeTransaction (some 48) true) resetChannel State.reset).alc.link = .reserved ∧
      (withBrake .sending (brakeTransaction none false) resetChannel State.reset).alc.link = .sending ∧
      State.reset.alc.link = .free := by decide

theorem witness_missed_service :
    let s := { State.reset with alc := { State.reset.alc with brake := { resetChannel with state := .pending, slot := some brakeMessage } } }
    s.ram.wf = true ∧ brakeMessage.frame.toNat % s.alc.record.interval .brake = 0 ∧ (s.alc.get .brake).state = .pending ∧
      (s.alc.get .brake).slot = some brakeMessage ∧ (s.alc.get .brake).served = true := by decide

theorem witness_unread_notices :
    occupancy State.reset.ram ⟨64, 0, false⟩ ≤ 64 ∧ 63 < occupancy State.reset.ram ⟨64, 0, false⟩ := by decide

/-! #### The invariants hold right after reset, so each has a state to start from -/

theorem witness_engine : EngineConsistent State.reset.rqe := by
  refine ⟨by decide, by decide, by decide, fun _ h => (by cases h), fun _ h => ?_⟩
  cases h

theorem witness_unit : UnitInRange State.reset.fcu := by
  refine ⟨by decide, by decide, by decide, ?_, by decide, fun _ h => (by cases h)⟩
  unfold ObserverInRange
  decide

theorem witness_records : RecordsInRange State.reset := by
  unfold RecordsInRange ModeInRange FactorsInRange LinkRecordInRange
  refine ⟨by decide, by decide, by decide, by decide, by decide, by decide, by decide, by decide, fun l => ?_⟩
  cases l
  case trailer => exact Or.inl ⟨rfl, rfl⟩
  all_goals exact Or.inr ⟨by decide, by decide, by decide, by decide, by decide, by decide, fun _ h => (by cases h <;> decide)⟩

theorem witness_lanes : LanesConsistent State.reset.lanes := by
  intro l
  cases l <;>
    refine ⟨by decide, by decide, by decide, by decide, by decide, by decide, fun _ h => (by cases h), by decide, by decide,
      by decide, by decide, by decide, fun _ h => (by cases h <;> decide)⟩

theorem witness_link : LinkConsistent State.reset.alc := by
  refine ⟨by unfold ChannelConsistent; decide, by unfold ChannelConsistent; decide, by unfold ChannelConsistent; decide, by decide,
    by decide, by decide, by decide, by decide, fun c h => ?_, fun _ h => (by cases h)⟩
  cases c <;> exact absurd h (by decide)

theorem witness_long_list : LongListMatches (capturing 32 31 false State.reset) := by
  refine ⟨by decide, ?_, ?_, fun c => ?_⟩
  · decide
  · decide
  · cases c <;> decide

theorem witness_alert : AlertFollows State.reset := by
  unfold AlertFollows
  decide

theorem witness_alert_resets :
    ({ State.reset with pending := [.powerOnReset] } : State).pending = [.powerOnReset] ∧ (1 : Word).getLsbD 0 = true ∧
      ({ State.reset with pending := [.softReset 1] } : State).pending = [.softReset 1] := by decide

end Sys2Proof.Tests
end

section
/-! PROOF. The adopted records: each operation of the part but the adoption itself and the resets leaves them alone. -/

namespace Sys2Proof.Machine

/-! ### The adopted link record -/

@[simp] theorem LinkController.set_record (a : LinkController) (c : ChannelId) (x : Channel) : (a.set c x).record = a.record := by
  cases c <;> rfl

@[simp] theorem setChannel_record (c : ChannelId) (x : Channel) (s : State) : (setChannel c x s).alc.record = s.alc.record :=
  LinkController.set_record s.alc c x

@[simp] theorem supersede_record (c : ChannelId) (x : Channel) (old msg : Message) (s : State) :
    (supersede c x old msg s).alc.record = s.alc.record := by
  unfold supersede
  split <;> simp

@[simp] theorem deposit_record (c : ChannelId) (msg : Message) (s : State) : (deposit c msg s).alc.record = s.alc.record := by
  unfold deposit
  split
  · simp only [dueDeposit]
    repeat' split
    all_goals simp
  · rfl

@[simp] theorem grant_record (c : ChannelId) (msg : Message) (a : LinkController) : (grant c msg a).record = a.record :=
  LinkController.set_record a c _

@[simp] theorem LinkController.consulted_record (a : LinkController) : a.consulted.record = a.record := by
  unfold LinkController.consulted
  split
  · exact grant_record _ _ _
  · rfl

@[simp] theorem consultArbiter_record (s : State) : (consultArbiter s).alc.record = s.alc.record :=
  LinkController.consulted_record s.alc

@[simp] theorem makeDeposits_record (c : Computation) (r : Results) (s : State) :
    (makeDeposits c r s).alc.record = s.alc.record := by
  unfold makeDeposits
  split <;> simp [depositAll]

@[simp] theorem freeLink_record (s : State) : (freeLink s).alc.record = s.alc.record := by
  simp only [freeLink, LinkController.freed]
  split <;> rfl

@[simp] theorem removeTransaction_record (c : ChannelId) (cond : Condition) (s : State) :
    (removeTransaction c cond s).alc.record = s.alc.record := by
  simp only [removeTransaction]
  split <;> simp

@[simp] theorem endGood_record (c : ChannelId) (cond : Condition) (s : State) : (endGood c cond s).alc.record = s.alc.record := by
  simp only [endGood, removeTransaction_record]
  split <;> split <;> simp

@[simp] theorem endMiss_record (c : ChannelId) (cond : Condition) (s : State) : (endMiss c cond s).alc.record = s.alc.record := by
  simp only [endMiss, removeTransaction_record]
  split <;> simp

@[simp] theorem countStray_record (s : State) : (countStray s).alc.record = s.alc.record := rfl

@[simp] theorem setLinkRx_record (rx : RxState) (address : Option Byte) (s : State) :
    (setLinkRx rx address s).alc.record = s.alc.record := rfl

@[simp] theorem classifyAck_record (address check : Byte) (s : State) :
    (classifyAck address check s).alc.record = s.alc.record := by
  unfold classifyAck classifyAwaited
  repeat' split
  all_goals simp

@[simp] theorem takeCharacter_record (ch : BitVec 10) (s : State) : (takeCharacter ch s).alc.record = s.alc.record := by
  unfold takeCharacter
  repeat' split
  all_goals rfl

@[simp] theorem restartChannel_record (c : ChannelId) (s : State) : (restartChannel c s).alc.record = s.alc.record := by
  have abandoned : (abandonTransaction c s.alc).record = s.alc.record := by
    unfold abandonTransaction
    split <;> rfl
  simp only [restartChannel]
  split <;> simp [abandoned]

@[simp] theorem requestStop_record (r : Request) (s : State) : (requestStop r s).alc.record = s.alc.record := by
  unfold requestStop
  split <;> simp [stopNow, stopLater]

@[simp] theorem requestResume_record (r : Request) (s : State) : (requestResume r s).alc.record = s.alc.record := by
  unfold requestResume
  split <;> simp

@[simp] theorem completeInFlight_record (s : State) : (completeInFlight s).alc.record = s.alc.record := by
  unfold completeInFlight
  split
  · simp [completeComputation, throughReport]
  · rfl

/-! ### The adopted mode and load records -/

@[simp] theorem startCalibration_records (target : OpState) (s : State) :
    (startCalibration target s).fcu.mode = s.fcu.mode ∧ (startCalibration target s).fcu.load = s.fcu.load := by
  simp [startCalibration]

@[simp] theorem calibrationFrame_records (p : Snapshot) (s : State) :
    (calibrationFrame p s).fcu.mode = s.fcu.mode ∧ (calibrationFrame p s).fcu.load = s.fcu.load := by
  have succeeds (avg : CalSums) (t : State) :
      (succeedCalibration avg t).fcu.mode = t.fcu.mode ∧ (succeedCalibration avg t).fcu.load = t.fcu.load := by
    simp [succeedCalibration, FrameUnit.calibrated]
  simp only [calibrationFrame]
  repeat' split
  all_goals simp [succeeds]

@[simp] theorem takeReport_records (c : Computation) (r : Results) (s : State) :
    (takeReport c r s).fcu.mode = s.fcu.mode ∧ (takeReport c r s).fcu.load = s.fcu.load := by
  simp only [takeReport]
  repeat' split
  all_goals simp

@[simp] theorem unitNotices_records (c : Computation) (r : Results) (s : State) :
    (unitNotices c r s).fcu.mode = s.fcu.mode ∧ (unitNotices c r s).fcu.load = s.fcu.load := by
  simp [unitNotices]

@[simp] theorem publish_records (c : Computation) (r : Results) (s : State) :
    (publish c r s).fcu.mode = s.fcu.mode ∧ (publish c r s).fcu.load = s.fcu.load := by
  simp [publish]

@[simp] theorem recordCapture_records (c : Computation) (r : Results) (s : State) :
    (recordCapture c r s).fcu.mode = s.fcu.mode ∧ (recordCapture c r s).fcu.load = s.fcu.load := by
  simp only [recordCapture]
  repeat' split
  all_goals simp

@[simp] theorem completeInFlight_records (s : State) :
    (completeInFlight s).fcu.mode = s.fcu.mode ∧ (completeInFlight s).fcu.load = s.fcu.load := by
  unfold completeInFlight
  split
  · simp [completeComputation, throughReport, FrameUnit.step1]
  · simp

@[simp] theorem startFrame_records (s : State) :
    (startFrame s).fcu.mode = s.fcu.mode ∧ (startFrame s).fcu.load = s.fcu.load := by
  unfold startFrame
  split <;> simp [beginComputation]

@[simp] theorem goActive_records (r : Request) (s : State) :
    (goActive r s).fcu.mode = s.fcu.mode ∧ (goActive r s).fcu.load = s.fcu.load := by
  unfold goActive
  repeat' split
  all_goals simp [clearEscalation]

@[simp] theorem goCalibrate_records (r : Request) (s : State) :
    (goCalibrate r s).fcu.mode = s.fcu.mode ∧ (goCalibrate r s).fcu.load = s.fcu.load := by
  unfold goCalibrate
  repeat' split
  all_goals simp [acceptCalibration]

@[simp] theorem requestCapture_records (r : Request) (s : State) :
    (requestCapture r s).fcu.mode = s.fcu.mode ∧ (requestCapture r s).fcu.load = s.fcu.load := by
  unfold requestCapture
  repeat' split
  all_goals simp

@[simp] theorem abandonRunningCapture_records (r : Request) (s : State) :
    (abandonRunningCapture r s).fcu.mode = s.fcu.mode ∧ (abandonRunningCapture r s).fcu.load = s.fcu.load := by
  unfold abandonRunningCapture
  split <;> simp

end Sys2Proof.Machine
end

section
/-! PROOF. The lane contexts: reading and replacing one lane, and the operations that update all five in lane order. -/

namespace Sys2Proof.Machine

open Sys2Proof.Safety

@[simp] theorem Lanes.get_set_same (ls : Lanes) (l : LaneId) (x : Lane) : (ls.set l x).get l = x := by
  cases l <;> rfl

theorem Lanes.get_set_ne (ls : Lanes) {l k : LaneId} (x : Lane) (h : k ≠ l) : (ls.set l x).get k = ls.get k := by
  cases l <;> cases k <;> simp_all [Lanes.set, Lanes.get]

theorem Lanes.get_set (ls : Lanes) (l k : LaneId) (x : Lane) : (ls.set l x).get k = if k = l then x else ls.get k := by
  split
  · next h => rw [h, Lanes.get_set_same]
  · next h => exact Lanes.get_set_ne ls x h

/-- The five lane contexts, each replaced by a function of itself. -/
def Lanes.mapEach (f : LaneId → Lane → Lane) (ls : Lanes) : Lanes :=
  ⟨f .imu ls.imu, f .front ls.front, f .rear ls.rear, f .engine ls.engine, f .trailer ls.trailer⟩

@[simp] theorem Lanes.get_mapEach (f : LaneId → Lane → Lane) (ls : Lanes) (l : LaneId) :
    (ls.mapEach f).get l = f l (ls.get l) := by
  cases l <;> rfl

/-! ### Reports -/

/-- A lane in the state it was in has nothing to report (R12). -/
@[simp] theorem reportLane_unchanged (l : LaneId) (a : LaneState) (s : State) : reportLane l a a s = s := if_pos rfl

/-- A report does not read the lane contexts. -/
theorem reportLane_withLanes (l : LaneId) (a b : LaneState) (s : State) (ls : Lanes) :
    reportLane l a b { s with lanes := ls } = { reportLane l a b s with lanes := ls } := by
  unfold reportLane
  split
  · rfl
  · split <;> rfl

/-- A report does not read what the beginning of a computation changes (R23). -/
theorem reportLane_beginComputation (l : LaneId) (a b : LaneState) (c : Computation) (s : State) :
    reportLane l a b (beginComputation c s) = beginComputation c (reportLane l a b s) := by
  unfold reportLane
  split
  · rfl
  · split <;> rfl

theorem updateLane_eq (l : LaneId) (x : Lane) (s : State) :
    updateLane l x s = { reportLane l (s.lanes.get l).state x.state s with lanes := s.lanes.set l x } :=
  reportLane_withLanes _ _ _ _ _

@[simp] theorem updateLane_lanes (l : LaneId) (x : Lane) (s : State) : (updateLane l x s).lanes = s.lanes.set l x := by
  rw [updateLane_eq]

/-- A lane whose state does not change is replaced without a report (R12). -/
theorem updateLane_sameState {l : LaneId} {x : Lane} {s : State} (h : x.state = (s.lanes.get l).state) :
    updateLane l x s = { s with lanes := s.lanes.set l x } := by
  rw [updateLane, h, reportLane_unchanged]

/-- All five lanes replaced in lane order, each reporting its change: the five contexts replaced, then the five reports. -/
theorem foldl_updateLane (f : LaneId → Lane → Lane) (s : State) :
    allLanes.foldl (fun t l => updateLane l (f l (t.lanes.get l)) t) s =
      allLanes.foldl (fun t l => reportLane l (s.lanes.get l).state (f l (s.lanes.get l)).state t)
        { s with lanes := s.lanes.mapEach f } := by
  simp only [allLanes, List.foldl_cons, List.foldl_nil, updateLane_eq, reportLane_withLanes]
  rfl

/-! ### All lanes aged, and the lane record adopted -/

@[simp] theorem ageLanes_lanes_get (s : State) (l : LaneId) : (ageLanes s).lanes.get l = (s.lanes.get l).aged := by
  rw [ageLanes, foldl_updateLane fun _ x => x.aged]
  simp [allLanes]

@[simp] theorem adoptLanes_lanes_get (s : State) (l : LaneId) :
    (adoptLanes s).lanes.get l = (s.lanes.get l).adopt (readLaneSettings s.ram l (s.lanes.get l).settings).1 := by
  rw [adoptLanes, foldl_updateLane fun l x => x.adopt (readLaneSettings s.ram l x.settings).1]
  simp [allLanes]

@[simp] theorem clearLanes_lanes_get (s : State) (l : LaneId) : (clearLanes s).lanes.get l = (s.lanes.get l).cleared := by
  cases l <;> rfl

/-! ### ADOPT and CLEAR by the mask's bits -/

/-- What an action keeps, it keeps when it is taken only where a mask names its bit. -/
theorem ifNamed_keeps {α : Type} (p : State → α) {act : State → State} (h : ∀ s, p (act s) = p s) (mask : Word) (k : Nat)
    (s : State) : p (ifNamed mask k act s) = p s := by
  unfold ifNamed
  split
  · exact h s
  · rfl

theorem ifNamed_off {mask : Word} {k : Nat} (h : mask.getLsbD k = false) (act : State → State) (s : State) :
    ifNamed mask k act s = s := by
  rw [ifNamed, names, h]
  rfl

/-- The mode and the load record adopted, as `AdoptApplied` writes them. -/
theorem adoptModeLoad_eq (mask : Word) (s : State) :
    ifNamed mask 1 adoptLoadRecord (ifNamed mask 0 adoptModeRecord s) = { s with
      fcu := { s.fcu with
        mode := if mask.getLsbD 0 then (rawMode s.ram).adopted else s.fcu.mode
        load := if mask.getLsbD 1 then loadRecordOf s.ram else s.fcu.load }
      ft := { s.ft with period := if mask.getLsbD 0 then clampPeriod (rawMode s.ram).framePeriod else s.ft.period } } := by
  unfold ifNamed names
  split <;> split <;> rfl

theorem adoptNamed_ft (mask : Word) (s : State) : (adoptNamed mask s).ft =
    { s.ft with period := if mask.getLsbD 0 then clampPeriod (rawMode s.ram).framePeriod else s.ft.period } := by
  unfold adoptNamed
  rw [ifNamed_keeps (·.ft) (by simp), ifNamed_keeps (·.ft) (by simp), adoptModeLoad_eq]

theorem adoptNamed_fcu (mask : Word) (s : State) : (adoptNamed mask s).fcu =
    { s.fcu with
      mode := if mask.getLsbD 0 then (rawMode s.ram).adopted else s.fcu.mode
      load := if mask.getLsbD 1 then loadRecordOf s.ram else s.fcu.load } := by
  unfold adoptNamed
  rw [ifNamed_keeps (·.fcu) (by simp), ifNamed_keeps (·.fcu) (by simp), adoptModeLoad_eq]

theorem adoptNamed_lanes_get (mask : Word) (s : State) (l : LaneId) : (adoptNamed mask s).lanes.get l =
    if mask.getLsbD 2 then (s.lanes.get l).adopt (readLaneSettings s.ram l (s.lanes.get l).settings).1 else s.lanes.get l := by
  unfold adoptNamed
  rw [ifNamed_keeps (·.lanes) (by simp), adoptModeLoad_eq, ifNamed, names]
  split
  · exact adoptLanes_lanes_get _ l
  · rfl

theorem LinkController.adopt_record (a : LinkController) (r : LinkRecord) : (a.adopt r).record = r := by
  unfold LinkController.adopt
  split <;> rfl

theorem adoptNamed_record (mask : Word) (s : State) :
    (adoptNamed mask s).alc.record = s.alc.record ∨ ∃ m, (adoptNamed mask s).alc.record = (readLinkRecord m).1 := by
  unfold adoptNamed
  rw [ifNamed]
  split
  · exact .inr ⟨_, LinkController.adopt_record _ _⟩
  · rw [ifNamed_keeps (·.alc) (by simp), adoptModeLoad_eq]
    exact .inl rfl

theorem clearNamed_lanes_get (mask : Word) (s : State) (l : LaneId) :
    (clearNamed mask s).lanes.get l = if names mask 1 then (s.lanes.get l).cleared else s.lanes.get l := by
  unfold clearNamed
  rw [ifNamed_keeps (·.lanes) (by simp), ifNamed_keeps (·.lanes) (by simp), ifNamed]
  split
  · rw [clearLanes_lanes_get, ifNamed_keeps (·.lanes) (by simp)]
  · rw [ifNamed_keeps (·.lanes) (by simp)]

@[simp] theorem clearNamed_records (mask : Word) (s : State) : (clearNamed mask s).fcu.mode = s.fcu.mode ∧
    (clearNamed mask s).fcu.load = s.fcu.load ∧ (clearNamed mask s).alc.record = s.alc.record := by
  unfold clearNamed ifNamed clearStickyFlags clearCounts clearHeader clearLanes
  repeat' split
  all_goals simp

end Sys2Proof.Machine
end

section
/-! PROOF. What one command can do to the lane contexts, the Frame Timer and the adopted records: one inversion lemma,
`step_configMove`, from which the invariants over them follow. -/

namespace Sys2Proof.Machine

open Sys2Proof.Safety

/-- What one command can make of one lane's context. -/
inductive LaneMove (l : LaneId) (x : Lane) : Lane → Prop
  | kept : LaneMove l x x
  | reset : LaneMove l x (resetLane l)
  | receiver (rx : RxState) : x.rx ≠ .off → rx ≠ .off → LaneMove l x { x with rx := rx }
  | word (w : LaneWord) : x.rx ≠ .off → LaneMove l x (x.word l w)
  | aged : LaneMove l x x.aged
  | adopted (m : Memory) : LaneMove l x (x.adopt (readLaneSettings m l x.settings).1)
  | cleared : LaneMove l x x.cleared

/-- What one command can make of the Frame Timer. -/
inductive TimerMove (f : FrameTimer) : FrameTimer → Prop
  | kept : TimerMove f f
  | reset : TimerMove f resetTimer
  | tick : TimerMove f f.tick
  | adopted (v : Nat) : TimerMove f { f with period := clampPeriod v }

/-- What one command can make of an adopted record: kept, back at its default, or read and clamped from the Exchange RAM. -/
def RecordMove {α : Type} (default : α) (read : Memory → α) (old new : α) : Prop :=
  new = old ∨ new = default ∨ ∃ m, new = read m

/-- What one command can make of the lane contexts, the Frame Timer and the adopted records. -/
structure ConfigMove (s t : State) : Prop where
  lane : ∀ l, LaneMove l (s.lanes.get l) (t.lanes.get l)
  timer : TimerMove s.ft t.ft
  mode : RecordMove defaultMode (fun m => (rawMode m).adopted) s.fcu.mode t.fcu.mode
  load : RecordMove defaultLoad loadRecordOf s.fcu.load t.fcu.load
  link : RecordMove defaultLink (fun m => (readLinkRecord m).1) s.alc.record t.alc.record

/-- The Frame Timer and the adopted records are the same; the lane contexts may differ. -/
def SameRecords (s t : State) : Prop :=
  t.ft = s.ft ∧ t.fcu.mode = s.fcu.mode ∧ t.fcu.load = s.fcu.load ∧ t.alc.record = s.alc.record

theorem ConfigMove.ofLane {s t : State} (h : SameRecords s t) (hl : ∀ l, LaneMove l (s.lanes.get l) (t.lanes.get l)) :
    ConfigMove s t := by
  obtain ⟨hft, hmode, hload, hlink⟩ := h
  exact ⟨hl, hft ▸ .kept, .inl hmode, .inl hload, .inl hlink⟩

theorem ConfigMove.ofSame {s t : State} (h : SameRecords s t) (hl : t.lanes = s.lanes) : ConfigMove s t :=
  .ofLane h fun _ => hl ▸ .kept

theorem ConfigMove.refl (s : State) : ConfigMove s s := .ofSame ⟨rfl, rfl, rfl, rfl⟩ rfl

/-- One lane moved, the others kept. -/
theorem ConfigMove.ofSet {s t : State} {l : LaneId} {x : Lane} (h : SameRecords s t) (hl : t.lanes = s.lanes.set l x)
    (hx : LaneMove l (s.lanes.get l) x) : ConfigMove s t := by
  refine .ofLane h fun k => ?_
  rw [hl, Lanes.get_set]
  split
  · next hk => exact hk ▸ hx
  · exact .kept

/-! ### The operations that move something -/

theorem State.reset_lanes_get (l : LaneId) : State.reset.lanes.get l = resetLane l := by
  cases l <;> rfl

/-- Either reset puts lanes, timer and records at their reset values (R171, R172). -/
theorem ConfigMove.ofReset {s t : State} (hl : t.lanes = resetLanes) (hft : t.ft = resetTimer) (hfcu : t.fcu = resetUnit)
    (halc : t.alc = resetLink) : ConfigMove s t where
  lane l := by
    rw [hl]
    exact State.reset_lanes_get l ▸ .reset
  timer := hft ▸ .reset
  mode := .inr (.inl (by rw [hfcu]; rfl))
  load := .inr (.inl (by rw [hfcu]; rfl))
  link := .inr (.inl (by rw [halc]; rfl))

theorem setLaneRx_configMove {l : LaneId} {rx : RxState} {s : State} (hs : (s.lanes.get l).rx ≠ .off) (hrx : rx ≠ .off) :
    ConfigMove s (setLaneRx l rx s) :=
  .ofSet (by simp [SameRecords]) rfl (.receiver rx hs hrx)

theorem startFrame_configMove (s : State) : ConfigMove s (startFrame s) := by
  refine ⟨fun l => ?_, ?_, .inl (by simp), .inl (by simp), .inl (by simp)⟩
  all_goals unfold startFrame; split
  · simpa using LaneMove.aged
  · exact .kept
  · simpa using TimerMove.tick
  · exact .kept

theorem applyAdopt_configMove (r : Request) (s : State) : ConfigMove s (applyAdopt r s) := by
  constructor
  case lane =>
    intro l
    simp only [applyAdopt, finish_frame, adoptNamed_lanes_get]
    split
    · exact .adopted _
    · exact .kept
  case timer =>
    simp only [applyAdopt, finish_frame, adoptNamed_ft]
    split
    · exact .adopted _
    · exact .kept
  case mode =>
    simp only [applyAdopt, finish_frame, adoptNamed_fcu]
    split
    · exact .inr (.inr ⟨_, rfl⟩)
    · exact .inl rfl
  case load =>
    simp only [applyAdopt, finish_frame, adoptNamed_fcu]
    split
    · exact .inr (.inr ⟨_, rfl⟩)
    · exact .inl rfl
  case link =>
    simp only [applyAdopt, finish_frame]
    obtain h | h := adoptNamed_record r.param1 s
    · exact .inl h
    · exact .inr (.inr h)

theorem applyClear_configMove (r : Request) (s : State) : ConfigMove s (applyClear r s) := by
  refine .ofLane (by simp [SameRecords, applyClear]) fun l => ?_
  simp only [applyClear, finish_frame, clearNamed_lanes_get]
  split
  · exact .cleared
  · exact .kept

theorem gapRequest_configMove {apply : Request → State → State} {r : Request} {s : State} (h : ConfigMove s (apply r s)) :
    ConfigMove s (gapRequest apply r s) := by
  unfold gapRequest
  split
  · exact h
  · exact .ofSame ⟨rfl, rfl, rfl, rfl⟩ rfl

theorem executeAdopt_configMove (r : Request) (s : State) : ConfigMove s (executeAdopt r s) := by
  unfold executeAdopt
  split
  · exact gapRequest_configMove (applyAdopt_configMove r s)
  · exact applyAdopt_configMove r s

theorem executeClear_configMove (r : Request) (s : State) : ConfigMove s (executeClear r s) := by
  unfold executeClear
  split
  · exact gapRequest_configMove (applyClear_configMove r s)
  · exact applyClear_configMove r s

theorem applyWaiting_configMove (r : Request) (s : State) : ConfigMove s (applyWaiting r s) := by
  unfold applyWaiting
  split
  · exact applyAdopt_configMove r s
  split
  · exact applyClear_configMove r s
  split
  · exact .ofSame (by simp [SameRecords]) (by simp)
  split
  · exact .ofSame (by simp [SameRecords]) (by simp)
  · exact .refl s

/-- A row that executes a taken request does what its execution does, or nothing. -/
theorem withTaken_configMove {belongs : Request → Bool} {run : Request → State → State} (s : State)
    (h : ∀ r, ConfigMove s (run r s)) : ConfigMove s (withTaken belongs run s) := by
  unfold withTaken
  split
  · split
    · exact h _
    · exact .refl s
  · exact .refl s

/-! ### One command, one step -/

/-- Every command moves lanes, timer and adopted records as `ConfigMove` says. -/
theorem exec_configMove {c : Instr} {s t : State} (h : exec c s = .next t) : ConfigMove s t := by
  cases c <;> (injection h with h; subst h)
  case powerOnReset => exact .ofReset rfl rfl rfl rfl
  case softReset =>
    split
    · exact .ofReset rfl rfl rfl rfl
    · exact .refl s
  case laneIdleDetected =>
    split
    · next h => exact setLaneRx_configMove (by simp [h.1]) (by decide)
    · exact .refl s
  case laneStartEdge =>
    split
    · next h => exact setLaneRx_configMove (by simp [h.1]) (by decide)
    · exact .refl s
  case laneFalseStart =>
    split
    · next h => exact setLaneRx_configMove (by simp [h.1]) (by decide)
    · exact .refl s
  case laneWordArrival =>
    split
    · next h => exact .ofSet (by simp [SameRecords]) (updateLane_lanes _ _ _) (.word _ (by simp [h]))
    · exact .refl s
  case frameStart => exact startFrame_configMove s
  case gapRequestApply =>
    split
    · exact applyWaiting_configMove _ s
    · exact .refl s
  case adoptMode | adoptLoad | adoptLane | adoptLink => exact withTaken_configMove s fun r => executeAdopt_configMove r s
  case clearSticky | clearLane | clearChannelCounts | clearNoticeHeader =>
    exact withTaken_configMove s fun r => executeClear_configMove r s
  case tableDump =>
    exact withTaken_configMove s fun r => gapRequest_configMove (.ofSame (by simp [SameRecords]) (by simp))
  case refusedKind | refusedRange | tableLoad | modeGoDormant | modeGoStandby | modeGoActive | modeGoCalibrate
      | abandonTransition | abandonCapture | channelStop | channelResume | channelRestart | capture =>
    exact withTaken_configMove s fun r => .ofSame (by simp [SameRecords]) (by simp)
  case hostRamWrite | computationComplete | attentionArrival | linkGrant =>
    exact .ofSame (by simp [SameRecords]) (by simp)
  case summaryWrite | summaryEnableWrite | registerWriteIgnored => exact .ofSame ⟨rfl, rfl, rfl, rfl⟩ rfl
  case tableDumpDone | messageSent | linkIdleDetected | linkStartEdge | linkFalseStart | ackAddressDiscard
      | linkCharacterArrival | ackArrival | replyTimeout =>
    split <;> exact .ofSame (by simp [SameRecords, LinkController.sent]) (by simp)

/-- One step moves lanes, timer and adopted records as `ConfigMove` says. -/
theorem step_configMove {s t : State} (h : step s = .next t) : ConfigMove s t := by
  unfold step at h
  split at h
  · injection h with h
    exact h ▸ .refl s
  · obtain ⟨lane, timer, mode, load, link⟩ := exec_configMove h
    exact ⟨lane, timer, mode, load, link⟩

end Sys2Proof.Machine
end

section
/-! PROOF. What the records read from the Exchange RAM are clamped to, and the operations on one lane's context. -/

namespace Sys2Proof.Machine

open Sys2Proof.Safety

/-! ### Clamps and the records' ranges -/

theorem le_clampNat {lo hi : Nat} (v : Nat) (h : lo ≤ hi) : lo ≤ clampNat lo hi v := by
  unfold clampNat
  repeat' split
  all_goals omega

theorem clampNat_le {lo hi : Nat} (v : Nat) (h : lo ≤ hi) : clampNat lo hi v ≤ hi := by
  unfold clampNat
  repeat' split
  all_goals omega

theorem Memory.u8At_le (m : Memory) (a : Nat) : m.u8At a ≤ 255 := Nat.le_of_lt_succ (m.readByte a).isLt

theorem clampPeriod_cases (v : Nat) : clampPeriod v = 1 ∨ clampPeriod v = 2 ∨ clampPeriod v = 4 := by
  unfold clampPeriod
  repeat' split
  all_goals omega

theorem RawMode.adopted_inRange (w : RawMode) : ModeInRange w.adopted := by
  simp [ModeInRange, RawMode.adopted, le_clampNat, clampNat_le]

theorem defaultMode_inRange : ModeInRange defaultMode := by
  unfold ModeInRange
  decide

/-- All four classes' factors lie in their ranges (R105). -/
def LoadInRange (r : LoadRecord) : Prop :=
  FactorsInRange r.solo ∧ FactorsInRange r.pillion ∧ FactorsInRange r.pillionLuggage ∧ FactorsInRange r.trailer

theorem loadRecordOf_inRange (m : Memory) : LoadInRange (loadRecordOf m) := by
  have clamped (f : ClassFactors) : FactorsInRange f.clamped := by
    simp [FactorsInRange, ClassFactors.clamped, le_clampNat, clampNat_le]
  exact ⟨clamped _, clamped _, clamped _, clamped _⟩

theorem defaultLoad_inRange : LoadInRange defaultLoad := by
  unfold LoadInRange FactorsInRange
  decide

theorem readLinkRecord_inRange (m : Memory) : LinkRecordInRange (readLinkRecord m).1 := by
  simp [LinkRecordInRange, readLinkRecord, le_clampNat, clampNat_le]

theorem defaultLink_inRange : LinkRecordInRange defaultLink := by
  unfold LinkRecordInRange
  decide

theorem defaultSettings_inRange (l : LaneId) : LaneSettingsInRange l (defaultSettings l) := by
  cases l
  case trailer => exact .inl ⟨rfl, rfl⟩
  all_goals exact .inr ⟨by decide, by decide, by decide, by decide, by decide, by decide, by simp [defaultSettings]⟩

/-- Settings read from the lane record are clamped to their ranges; max_step is read where the lane holds one (R14). -/
theorem readLaneSettings_inRange (m : Memory) {l : LaneId} {old : LaneSettings}
    (h : old.maxStep.isSome = true ↔ l = .front ∨ l = .rear) : LaneSettingsInRange l (readLaneSettings m l old).1 := by
  have hE := clampNat_le (m.u8At (laneRecordAt l + 2)) (show 1 ≤ 16 by decide)
  have hbyte := m.u8At_le (laneRecordAt l + 3)
  have hhold : max (clampNat 1 16 (m.u8At (laneRecordAt l + 2))) (m.u8At (laneRecordAt l + 3)) ≤ 255 := by omega
  have hlow := le_clampNat (m.u8At (laneRecordAt l + 2)) (show 1 ≤ 16 by decide)
  unfold readLaneSettings
  cases hs : old.maxStep with
  | none => exact .inr ⟨Nat.min_le_left _ _, hlow, hE, Nat.le_max_left _ _, hhold, by simpa [hs] using h, by simp⟩
  | some limit =>
    refine .inr ⟨Nat.min_le_left _ _, hlow, hE, Nat.le_max_left _ _, hhold, by simpa [hs] using h, fun _ heq => ?_⟩
    cases heq
    exact ⟨le_clampNat _ (by decide), clampNat_le _ (by decide)⟩

/-! ### What the operations on a lane leave of its settings -/

@[simp] theorem Lane.note_settings (x : Lane) (e : LaneError) : (x.note e).settings = x.settings := rfl

@[simp] theorem Lane.append_settings (l : LaneId) (x : Lane) (vs : List Half) : (x.append l vs).settings = x.settings := by
  unfold Lane.append Lane.complete
  repeat' split
  all_goals rfl

@[simp] theorem Lane.badWord_settings (x : Lane) (parityOk stopOk : Bool) :
    (x.badWord parityOk stopOk).settings = x.settings := by
  cases parityOk <;> cases stopOk <;> rfl

@[simp] theorem Lane.word_settings (l : LaneId) (x : Lane) (w : LaneWord) : (x.word l w).settings = x.settings := by
  simp only [Lane.word, Lane.markerWord, Lane.plainWord]
  repeat' split
  all_goals simp

@[simp] theorem Lane.adopt_settings (x : Lane) (new : LaneSettings) : (x.adopt new).settings = new := by
  unfold Lane.adopt
  repeat' split
  all_goals rfl

/-- A lane's settings are kept, back at their defaults, or read from the lane record (R14, R15). -/
theorem LaneMove.settings {l : LaneId} {x y : Lane} (h : LaneMove l x y) :
    y.settings = x.settings ∨ y.settings = defaultSettings l ∨ ∃ m, y.settings = (readLaneSettings m l x.settings).1 := by
  cases h with
  | reset => exact .inr (.inl rfl)
  | adopted m => exact .inr (.inr ⟨m, Lane.adopt_settings _ _⟩)
  | word w _ => exact .inl (Lane.word_settings _ _ _)
  | kept | receiver | aged | cleared => exact .inl rfl

end Sys2Proof.Machine
end

section
/-! PROOF. The lane contexts agree with their settings through every step, and the adopted records stay in their ranges. -/

namespace Sys2Proof.Safety

open Sys2Proof.Machine

/-! ### One lane -/

/-- Settings in their ranges are as `LaneConsistent` wants them: E of the TRAILER's reset values alone is above 16 (R14's note). -/
theorem LaneSettingsInRange.bounds {l : LaneId} {x : LaneSettings} (h : LaneSettingsInRange l x) :
    x.rate ≤ 3 ∧ 1 ≤ x.expected ∧ x.expected ≤ x.hold ∧ x.hold ≤ 255 ∧
      (x.maxStep.isSome = true ↔ l = .front ∨ l = .rear) ∧ ∀ limit, x.maxStep = some limit → 1 ≤ limit ∧ limit ≤ 2000 := by
  obtain ⟨rfl, rfl⟩ | ⟨hrate, hlow, -, hhold, hhigh, hstep⟩ := h
  · simp
  · exact ⟨hrate, hlow, hhold, hhigh, hstep⟩

theorem resetLane_consistent (l : LaneId) : LaneConsistent l (resetLane l) :=
  have on : (defaultSettings l).enable = true := by cases l <;> rfl
  ⟨Nat.le_refl _, Nat.zero_le _, List.length_replicate, by simp [resetLane, on], by simp [resetLane], by simp [resetLane],
    by simp [resetLane], (defaultSettings_inRange l).bounds⟩

/-- A lane whose receiver is not stopped is enabled (R16). -/
theorem LaneConsistent.enabled {l : LaneId} {x : Lane} (h : LaneConsistent l x) (hrx : x.rx ≠ .off) :
    x.settings.enable = true := by
  obtain ⟨-, -, -, hoff, -⟩ := h
  by_contra hen
  exact hrx (hoff (Bool.eq_false_of_not_eq_true hen)).2.1

theorem LaneConsistent.openBurst {l : LaneId} {x : Lane} {vs : List Half} (h : LaneConsistent l x) (hvs : x.burst = some vs) :
    vs.length < channelCount l := by
  obtain ⟨-, -, -, -, -, -, hburst, -⟩ := h
  exact (hburst vs hvs).2

theorem LaneConsistent.maxStep_isSome {l : LaneId} {x : Lane} (h : LaneConsistent l x) :
    x.settings.maxStep.isSome = true ↔ l = .front ∨ l = .rear := by
  obtain ⟨-, -, -, -, -, -, -, -, -, -, -, hstep, -⟩ := h
  exact hstep

theorem LaneConsistent.note {l : LaneId} {x : Lane} (h : LaneConsistent l x) (e : LaneError) : LaneConsistent l (x.note e) := by
  obtain ⟨hage, -, hslot, hoff, hon, hstate, hburst, hset⟩ := h
  exact ⟨hage, Nat.min_le_left _ _, hslot, hoff, hon, hstate, hburst, hset⟩

theorem LaneConsistent.dropBurst {l : LaneId} {x : Lane} (h : LaneConsistent l x) : LaneConsistent l { x with burst := none } := by
  obtain ⟨hage, hcount, hslot, hoff, hon, hstate, -, hset⟩ := h
  exact ⟨hage, hcount, hslot, fun hen => ⟨(hoff hen).1, (hoff hen).2.1, rfl⟩, hon, hstate, by simp, hset⟩

theorem LaneConsistent.receiver {l : LaneId} {x : Lane} {rx : RxState} (h : LaneConsistent l x) (hen : x.settings.enable = true)
    (hrx : rx ≠ .off) : LaneConsistent l { x with rx := rx } := by
  obtain ⟨hage, hcount, hslot, -, -, hstate, hburst, hset⟩ := h
  exact ⟨hage, hcount, hslot, by simp [hen], fun _ => hrx, hstate, hburst, hset⟩

/-- A burst is accepted with as many values as its lane has channels (R8). -/
theorem LaneConsistent.accept {l : LaneId} {x : Lane} {vs : List Half} (h : LaneConsistent l x)
    (hen : x.settings.enable = true) (hvs : vs.length = channelCount l) : LaneConsistent l (x.accept vs) := by
  obtain ⟨-, hcount, -, -, hon, -, -, hset⟩ := h
  exact ⟨Nat.zero_le _, hcount, hvs, by simp [Lane.accept, hen], hon, by simp [Lane.accept, stateByAge], by simp [Lane.accept], hset⟩

theorem LaneConsistent.append {l : LaneId} {x : Lane} {vs : List Half} (h : LaneConsistent l x)
    (hen : x.settings.enable = true) (hpos : 0 < vs.length) (hvs : vs.length ≤ channelCount l) :
    LaneConsistent l (x.append l vs) := by
  unfold Lane.append
  split
  · next hfull =>
    unfold Lane.complete
    split
    · exact h.accept hen (Nat.le_antisymm hvs hfull)
    · exact (h.note .implausible).dropBurst
  · next hopen =>
    obtain ⟨hage, hcount, hslot, -, hon, hstate, -, hset⟩ := h
    refine ⟨hage, hcount, hslot, by simp [hen], hon, hstate, fun _ heq => ?_, hset⟩
    cases heq
    exact ⟨hpos, Nat.lt_of_not_le hopen⟩

theorem channelCount_pos (l : LaneId) : 0 < channelCount l := by
  cases l <;> decide

theorem LaneConsistent.markerWord {l : LaneId} {x : Lane} (h : LaneConsistent l x) (hen : x.settings.enable = true)
    (tag : Nat) (v : Half) : LaneConsistent l (x.markerWord l tag v) := by
  unfold Lane.markerWord
  split
  · split
    · exact h.append hen Nat.one_pos (channelCount_pos l)
    · exact (h.note .short).append hen Nat.one_pos (channelCount_pos l)
  · exact (h.note .tag).dropBurst

theorem LaneConsistent.plainWord {l : LaneId} {x : Lane} (h : LaneConsistent l x) (hen : x.settings.enable = true)
    (tag : Nat) (v : Half) : LaneConsistent l (x.plainWord l tag v) := by
  unfold Lane.plainWord
  split
  · exact h.note .stray
  · next vs hvs =>
    split
    · exact h.append hen (by simp) (by simpa using h.openBurst hvs)
    · exact (h.note .tag).dropBurst

theorem LaneConsistent.badWord {l : LaneId} {x : Lane} (h : LaneConsistent l x) (hen : x.settings.enable = true)
    (parityOk stopOk : Bool) : LaneConsistent l (x.badWord parityOk stopOk) := by
  have hparity : LaneConsistent l (if parityOk then x else x.note .parity) := by
    split
    · exact h
    · exact h.note .parity
  have hstop : LaneConsistent l (if stopOk then if parityOk then x else x.note .parity
      else (if parityOk then x else x.note .parity).note .frame) := by
    split
    · exact hparity
    · exact hparity.note .frame
  refine LaneConsistent.receiver hstop.dropBurst ?_ ?_
  · cases parityOk <;> cases stopOk <;> exact hen
  · cases stopOk <;> decide

theorem LaneConsistent.word {l : LaneId} {x : Lane} (h : LaneConsistent l x) (hen : x.settings.enable = true) (w : LaneWord) :
    LaneConsistent l (x.word l w) := by
  have hunt : LaneConsistent l { x with rx := .hunt } := h.receiver hen (by decide)
  unfold Lane.word
  split
  · exact hunt
  split
  · dsimp only
    split
    · exact hunt.markerWord hen _ _
    · exact hunt.plainWord hen _ _
  · exact h.badWord hen _ _

/-- A re-derived state is the one its age gives, or SILENT as it was (R10, R11). -/
theorem Lane.rederive_state (x : Lane) : x.rederive.state ≠ .silent →
    x.rederive.state = stateByAge x.rederive.age x.rederive.settings.expected x.rederive.settings.hold := by
  unfold Lane.rederive
  dsimp only
  split
  · exact fun h => absurd rfl h
  · exact fun _ => rfl

theorem LaneConsistent.aged {l : LaneId} {x : Lane} (h : LaneConsistent l x) : LaneConsistent l x.aged := by
  obtain ⟨-, hcount, hslot, hoff, hon, -, hburst, hset⟩ := h
  refine ⟨Nat.min_le_left _ _, hcount, hslot, fun hen => ?_, hon, Lane.rederive_state _, hburst, hset⟩
  obtain ⟨hsilent, hrest⟩ := hoff hen
  exact ⟨if_pos hsilent, hrest⟩

theorem LaneConsistent.adopt {l : LaneId} {x : Lane} (h : LaneConsistent l x) {new : LaneSettings}
    (hnew : LaneSettingsInRange l new) : LaneConsistent l (x.adopt new) := by
  obtain ⟨hage, hcount, hslot, -, hon, -, hburst, -⟩ := h
  have hset := hnew.bounds
  unfold Lane.adopt
  split
  · next hen =>
    have hen : new.enable = false := by simpa using hen
    exact ⟨hage, hcount, hslot, fun _ => ⟨rfl, rfl, rfl⟩, by simp [hen], by simp, by simp, hset⟩
  next hen =>
  have hen : new.enable = true := by simpa using hen
  split
  · exact ⟨hage, hcount, hslot, by simp [hen], by simp, by simp, by simp, hset⟩
  next hold =>
  have hold : x.settings.enable = true := by simpa using hold
  split
  · exact ⟨hage, hcount, hslot, by simp [Lane.rederive, hen], by simp [Lane.rederive], Lane.rederive_state _,
      by simp [Lane.rederive], hset⟩
  · exact ⟨hage, hcount, hslot, by simp [Lane.rederive, hen], fun _ => hon hold, Lane.rederive_state _, hburst, hset⟩

theorem LaneConsistent.cleared {l : LaneId} {x : Lane} (h : LaneConsistent l x) : LaneConsistent l x.cleared := by
  obtain ⟨hage, -, hslot, hoff, hon, hstate, hburst, hset⟩ := h
  exact ⟨hage, Nat.zero_le _, hslot, hoff, hon, hstate, hburst, hset⟩

/-- Whatever one command makes of a consistent lane is consistent. -/
theorem LaneConsistent.move {l : LaneId} {x y : Lane} (h : LaneConsistent l x) (hm : LaneMove l x y) : LaneConsistent l y := by
  cases hm with
  | kept => exact h
  | reset => exact resetLane_consistent l
  | receiver rx hx hrx => exact h.receiver (h.enabled hx) hrx
  | word w hx => exact h.word (h.enabled hx) w
  | aged => exact h.aged
  | adopted m => exact h.adopt (readLaneSettings_inRange m h.maxStep_isSome)
  | cleared => exact h.cleared

/-- Settles O55: one step makes of each lane one of the moves of `LaneMove`, and each of them keeps the lane consistent. -/
theorem lanesStayConsistent : Obligations.LanesStayConsistent :=
  fun _ _ hs hstep l => (hs l).move ((step_configMove hstep).lane l)

end Sys2Proof.Safety

namespace Sys2Proof.Machine

open Sys2Proof.Safety

/-! ### The records -/

/-- A property of the old record, of the default and of every record read holds of the record a command leaves. -/
theorem RecordMove.keeps {α : Type} {P : α → Prop} {default old new : α} {read : Memory → α} (h : RecordMove default read old new)
    (hold : P old) (hdefault : P default) (hread : ∀ m, P (read m)) : P new := by
  obtain rfl | rfl | ⟨m, rfl⟩ := h
  · exact hold
  · exact hdefault
  · exact hread m

/-- A frame period or interval, in ms (R22, R37). -/
def PeriodInRange (v : Nat) : Prop := v = 1 ∨ v = 2 ∨ v = 4

theorem TimerMove.inRange {f g : FrameTimer} (h : TimerMove f g) (hf : PeriodInRange f.period ∧ PeriodInRange f.interval) :
    PeriodInRange g.period ∧ PeriodInRange g.interval := by
  cases h with
  | kept => exact hf
  | reset => exact ⟨.inr (.inl rfl), .inr (.inl rfl)⟩
  | tick => exact ⟨hf.1, hf.1⟩
  | adopted v => exact ⟨clampPeriod_cases v, hf.2⟩

theorem LaneMove.settings_inRange {l : LaneId} {x y : Lane} (h : LaneMove l x y) (hx : LaneSettingsInRange l x.settings) :
    LaneSettingsInRange l y.settings := by
  obtain h | h | ⟨m, h⟩ := h.settings
  · exact h ▸ hx
  · exact h ▸ defaultSettings_inRange l
  · obtain ⟨-, -, -, -, hstep, -⟩ := hx.bounds
    exact h ▸ readLaneSettings_inRange m hstep

end Sys2Proof.Machine

namespace Sys2Proof.Safety

open Sys2Proof.Machine

theorem RecordsInRange.move {s t : State} (h : RecordsInRange s) (hm : ConfigMove s t) : RecordsInRange t := by
  obtain ⟨hperiod, hinterval, hmode, hsolo, hpillion, hluggage, htrailer, hlink, hlanes⟩ := h
  have timer := hm.timer.inRange ⟨hperiod, hinterval⟩
  have load : LoadInRange t.fcu.load :=
    hm.load.keeps (P := LoadInRange) ⟨hsolo, hpillion, hluggage, htrailer⟩ defaultLoad_inRange loadRecordOf_inRange
  obtain ⟨solo, pillion, luggage, trailer⟩ := load
  exact ⟨timer.1, timer.2, hm.mode.keeps hmode defaultMode_inRange fun m => (rawMode m).adopted_inRange,
    solo, pillion, luggage, trailer, hm.link.keeps hlink defaultLink_inRange readLinkRecord_inRange,
    fun l => (hm.lane l).settings_inRange (hlanes l)⟩

/-- Settles O59: one step keeps each record, puts it back at its default, or reads it clamped to its ranges. -/
theorem recordsStayInRange : Obligations.RecordsStayInRange :=
  fun _ _ hs hstep => hs.move (step_configMove hstep)

end Sys2Proof.Safety
end

section
/-! PROOF. The statements about one lane: its receiver, its words and bursts, its reports, and the settings it takes. -/

namespace Sys2Proof.Machine

open Sys2Proof.Safety

/-! ### Reports -/

/-- Settles O14: the offered notice is taken as `offerNotice_taken` says, and an entry to LOST raises LANE_LOST after it. -/
theorem laneReport : Obligations.LaneReport := by
  intro l before after s hm
  unfold reportLane
  split
  · rfl
  refine ⟨_, offerNotice_taken .lane (laneIndex l) (u32 after.code) (u32 before.code) hm, ?_⟩
  split <;> rfl

/-! ### Words -/

/-- A word decided in RECEIVE is taken by its lane; in any other receiver state the row changes nothing (R3). -/
theorem exec_laneWordArrival (l : LaneId) (s7 s8 s9 : BitVec 23) (s : State) :
    exec (.laneWordArrival l s7 s8 s9) s = .next
      (if (s.lanes.get l).rx = .receive then updateLane l ((s.lanes.get l).word l (laneWordFields (majority s7 s8 s9))) s
        else s) := rfl

/-- A word that leaves the lane's state is the lane's context replaced, and nothing else. -/
theorem exec_laneWordArrival_quiet {l : LaneId} {s7 s8 s9 : BitVec 23} {s : State} {x : Lane}
    (hrx : (s.lanes.get l).rx = .receive) (hx : (s.lanes.get l).word l (laneWordFields (majority s7 s8 s9)) = x)
    (hstate : x.state = (s.lanes.get l).state) :
    exec (.laneWordArrival l s7 s8 s9) s = .next { s with lanes := s.lanes.set l x } := by
  rw [exec_laneWordArrival, if_pos hrx, hx, updateLane_sameState hstate]

/-- A word whose start bit is decided low and that fails a check (R3). -/
theorem Lane.word_bad (l : LaneId) (x : Lane) {w : LaneWord} (hstart : w.start = false)
    (hbad : ¬(w.parityOk = true ∧ w.stop = true)) : x.word l w = x.badWord w.parityOk w.stop := by
  simp [Lane.word, hstart, hbad]

/-- A good word with the marker bit set (R4). -/
theorem Lane.word_marker (l : LaneId) (x : Lane) {w : LaneWord} (hstart : w.start = false) (hparity : w.parityOk = true)
    (hstop : w.stop = true) (hmarker : w.marker = true) :
    x.word l w = Lane.markerWord l { x with rx := .hunt } w.tag w.value := by
  simp [Lane.word, hstart, hparity, hstop, hmarker]

/-- A good word with the marker bit clear (R5). -/
theorem Lane.word_plain (l : LaneId) (x : Lane) {w : LaneWord} (hstart : w.start = false) (hparity : w.parityOk = true)
    (hstop : w.stop = true) (hmarker : w.marker = false) :
    x.word l w = Lane.plainWord l { x with rx := .hunt } w.tag w.value := by
  simp [Lane.word, hstart, hparity, hstop, hmarker]

/-- Settles O11: a failing word is `Lane.badWord`, whose two checks give three cases. -/
theorem laneWordFailed : Obligations.LaneWordFailed := by
  rintro l s7 s8 s9 w s hrx rfl hstart hbad
  refine exec_laneWordArrival_quiet hrx ?_ rfl
  rw [Lane.word_bad l _ hstart hbad]
  generalize laneWordFields (majority s7 s8 s9) = w at *
  have hcount (n : Nat) : satInc 255 (satInc 255 n) = min 255 (n + 2) := by
    unfold satInc
    omega
  cases hparity : w.parityOk <;> cases hstop : w.stop
  · simp [Lane.badWord, Lane.note, LaneFlags.set, hcount]
  · simp [Lane.badWord, Lane.note, LaneFlags.set, satInc]
  · simp [Lane.badWord, Lane.note, LaneFlags.set, satInc]
  · exact absurd ⟨hparity, hstop⟩ hbad

/-! ### Bursts -/

theorem Lane.append_open {l : LaneId} (x : Lane) {vs : List Half} (h : ¬channelCount l ≤ vs.length) :
    x.append l vs = { x with burst := some vs } := if_neg h

theorem Lane.append_full {l : LaneId} (x : Lane) {vs : List Half} (h : channelCount l ≤ vs.length) :
    x.append l vs = x.complete l vs := if_pos h

/-- A burst short of its lane's channels stays open after a marker word of tag 0 (R4). -/
theorem Lane.markerWord_open {l : LaneId} (x : Lane) (v : Half) (h : channelCount l ≠ 1) :
    x.markerWord l 0 v =
      if x.burst.isSome then { x.note .short with burst := some [v] } else { x with burst := some [v] } := by
  have hopen : ¬channelCount l ≤ [v].length := by
    have := channelCount_pos l
    simp only [List.length_singleton]
    omega
  unfold Lane.markerWord
  cases hb : x.burst <;> simp [Lane.append_open _ hopen]

/-- The plain word that an open burst expects, and that does not complete it, joins it (R5). -/
theorem Lane.plainWord_open {l : LaneId} {x : Lane} {vs : List Half} (v : Half) (hb : x.burst = some vs)
    (h : ¬channelCount l ≤ vs.length + 1) : x.plainWord l vs.length v = { x with burst := some (vs ++ [v]) } := by
  simp only [Lane.plainWord, hb, if_true]
  exact Lane.append_open x (by simpa using h)

/-- Settles O12: the marker word's and the plain word's rows of the assembler, where no burst is completed. -/
theorem laneAssembly : Obligations.LaneAssembly := by
  rintro l s7 s8 s9 w s hrx rfl hstart hparity hstop hnone
  generalize hw : laneWordFields (majority s7 s8 s9) = w at *
  refine exec_laneWordArrival_quiet hrx ?_ ?_
  · rw [hw]
    cases hmarker : w.marker with
    | true =>
      rw [Lane.word_marker l _ hstart hparity hstop hmarker]
      by_cases htag : w.tag = 0
      · have hmany : channelCount l ≠ 1 := by simpa [completedBurst, hmarker, htag] using hnone
        rw [htag, Lane.markerWord_open _ _ hmany]
        rfl
      · simp only [Lane.markerWord, htag, if_false, if_true]
        rfl
    | false =>
      rw [Lane.word_plain l _ hstart hparity hstop hmarker]
      cases hb : (s.lanes.get l).burst with
      | none => simp [Lane.plainWord, hb, Lane.note, LaneFlags.set, satInc]
      | some vs =>
        by_cases htag : w.tag = vs.length
        · have hopen : ¬channelCount l ≤ vs.length + 1 := by simpa [completedBurst, hmarker, htag, hb] using hnone
          rw [htag, Lane.plainWord_open _ rfl hopen]
          simp
        · simp only [Lane.plainWord, htag, if_false]
          rfl
  · repeat' split
    all_goals rfl

/-- The step check as R7 states it. -/
theorem stepOk_iff (x : Lane) (v : Half) : stepOk x v = true ↔ ∀ limit, x.settings.maxStep = some limit →
    ((v.toNat : Int) - ((x.slot.getD 0 0).toNat : Int)).natAbs ≤ limit := by
  have hdiff (a b : Nat) : absDiff a b = ((a : Int) - (b : Int)).natAbs := by
    unfold absDiff
    split <;> omega
  unfold stepOk
  cases x.settings.maxStep <;> simp [hdiff]

theorem wheelPlausible_iff (x : Lane) (v : Half) : wheelPlausible x v = true ↔ v.toNat ≤ 10000 ∧ (x.state = .live →
    ∀ limit, x.settings.maxStep = some limit →
      ((v.toNat : Int) - ((x.slot.getD 0 0).toNat : Int)).natAbs ≤ limit) := by
  rw [← stepOk_iff]
  by_cases h : x.state = .live <;> simp [wheelPlausible, h]

/-- The part's plausibility check is the rule of R6 and R7. -/
theorem plausible_iff (l : LaneId) (x : Lane) (vs : List Half) : plausible l x vs = true ↔ Plausible l x (vs.getD 0 0) := by
  cases l with
  | imu => simp [plausible, Plausible]
  | front => exact wheelPlausible_iff x _
  | rear => exact wheelPlausible_iff x _
  | engine => simp [plausible, Plausible]
  | trailer =>
    simp only [plausible, Plausible, decide_eq_true_eq]
    generalize vs.getD 0 0 = v
    bv_omega

/-- A good word that completes a burst hands its values to acceptance or rejection, the receiver in HUNT (R4 to R6). -/
theorem Lane.word_completes {l : LaneId} {x : Lane} {w : LaneWord} {vs : List Half} (hstart : w.start = false)
    (hparity : w.parityOk = true) (hstop : w.stop = true) (hvs : completedBurst l x w = some vs)
    (hsingle : channelCount l = 1 → x.burst = none) : x.word l w = Lane.complete l { x with rx := .hunt } vs := by
  cases hmarker : w.marker with
  | true =>
    obtain ⟨⟨htag, hone⟩, rfl⟩ : (w.tag = 0 ∧ channelCount l = 1) ∧ [w.value] = vs := by
      simpa [completedBurst, hmarker] using hvs
    rw [Lane.word_marker l x hstart hparity hstop hmarker]
    simp only [Lane.markerWord, htag, hsingle hone, if_true]
    exact Lane.append_full _ (Nat.le_of_eq hone)
  | false =>
    rw [Lane.word_plain l x hstart hparity hstop hmarker]
    cases hb : x.burst with
    | none => simp [completedBurst, hmarker, hb] at hvs
    | some open' =>
      obtain ⟨⟨htag, hfull⟩, rfl⟩ :
          (w.tag = open'.length ∧ channelCount l ≤ open'.length + 1) ∧ open' ++ [w.value] = vs := by
        simpa [completedBurst, hmarker, hb] using hvs
      simp only [Lane.plainWord, htag, if_true]
      exact Lane.append_full _ (by simpa using hfull)

/-- Settles O13: the completed burst by its plausibility; an accepted one reports a lane that was not LIVE. -/
theorem laneBurstComplete : Obligations.LaneBurstComplete := by
  constructor
  · rintro l s7 s8 s9 w vs s hrx rfl hstart hparity hstop hvs hsingle hplausible hm
    have hok : plausible l { s.lanes.get l with rx := .hunt } vs = true := (plausible_iff l _ vs).mpr hplausible
    have hword : (s.lanes.get l).word l (laneWordFields (majority s7 s8 s9)) =
        { s.lanes.get l with rx := .hunt, burst := none, slot := vs, age := 0, state := .live } := by
      rw [Lane.word_completes hstart hparity hstop hvs hsingle, Lane.complete, if_pos hok]
      rfl
    refine ⟨updateLane l { s.lanes.get l with rx := .hunt, burst := none, slot := vs, age := 0, state := .live } s, ?_, ?_⟩
    · rw [exec_laneWordArrival, if_pos hrx, hword]
    · split
      · next hlive => exact updateLane_sameState hlive.symm
      · next hlive =>
        rw [updateLane, reportLane, if_neg hlive, if_neg (by simp)]
        exact offerNotice_taken (s := { s with lanes := _ }) _ _ _ _ hm
  · rintro l s7 s8 s9 w vs s hrx rfl hstart hparity hstop hvs hsingle himplausible
    have hbad : ¬plausible l { s.lanes.get l with rx := .hunt } vs = true :=
      fun h => himplausible ((plausible_iff l _ vs).mp h)
    refine exec_laneWordArrival_quiet hrx ?_ rfl
    rw [Lane.word_completes hstart hparity hstop hvs hsingle, Lane.complete, if_neg hbad]
    rfl

/-! ### New settings -/

/-- Settles O15: the four cases of `Lane.adopt`; the same settings again re-derive a state that is already the age's. -/
theorem laneAdoption : Obligations.LaneAdoption := by
  rintro l ⟨rx, burst, slot, age, state, flags, count, settings⟩ new ⟨-, -, -, hoff, -, hstate, -⟩
  dsimp only at hoff hstate ⊢
  refine ⟨fun hnew => ?_, fun hnew hold => ?_, fun hnew hold => ?_, ?_⟩
  · simp [Lane.adopt, hnew]
  · simp [Lane.adopt, hnew, hold]
  · by_cases hrate : new.rate = settings.rate
    · simp [Lane.adopt, Lane.rederive, hnew, hold, hrate]
    · simp [Lane.adopt, Lane.rederive, hnew, hold, hrate, Ne.symm hrate]
  · cases hen : settings.enable with
    | false =>
      obtain ⟨rfl, rfl, rfl⟩ := hoff hen
      simp [Lane.adopt, hen]
    | true =>
      by_cases hsilent : state = .silent
      · simp [Lane.adopt, Lane.rederive, hen, hsilent]
      · simp [Lane.adopt, Lane.rederive, hen, hsilent, ← hstate hsilent]

end Sys2Proof.Machine
end

section
/-! PROOF. The frame start, and ADOPT at its execution, waiting and in the gap. -/

namespace Sys2Proof.Machine

open Sys2Proof.Safety

/-! ### The frame start -/

theorem Lane.aged_eq_laneAged (x : Lane) : x.aged = laneAged x := rfl

/-- Settles O16: the five updates are the five contexts aged and then the five reports (`foldl_updateLane`), and no report
reads what the beginning of the computation changes. -/
theorem frameStart : Obligations.FrameStart := by
  constructor
  · intro s hbusy
    show Host.Outcome.next (startFrame s) = _
    rw [startFrame, if_neg (by simp [Option.isSome_iff_ne_none.mp hbusy])]
  · intro s hidle
    show Host.Outcome.next (startFrame s) = _
    have hage := foldl_updateLane (fun _ x => x.aged) { s with ft := s.ft.tick }
    rw [startFrame, if_pos (by simp [hidle]), ageLanes, hage]
    simp only [allLanes, List.foldl_cons, List.foldl_nil, ← reportLane_beginComputation]
    rfl

/-! ### ADOPT -/

/-- A row of a taken ADOPT whose mask passes its check and names the row's record executes it (R167). -/
theorem adoptNaming_of_named {r : Request} {k : Nat} (hkind : r.kind = 1) (hmask : r.param1.toNat < 16)
    (hk : r.param1.getLsbD k = true) : adoptNaming k r = true := by
  have hnonzero : r.param1 ≠ 0 := by
    intro h
    simp [h] at hk
  have hcheck : maskCheck r.param1 = none := by
    rw [maskCheck, if_neg (by omega), if_neg hnonzero]
  simp [adoptNaming, kindAdopt, hkind, hcheck, names, hk]

/-- The four counts of an ADOPT as one detail: a bit for each record with a clamped field (R167). -/
theorem clampDetail_eq (a b c d : Nat) : clampDetail [a, b, c, d] =
    (if a = 0 then 0 else 1) + (if b = 0 then 0 else 2) + (if c = 0 then 0 else 4) + (if d = 0 then 0 else 8) := by
  have hbit (n : Nat) : bitOf (n != 0) = if n = 0 then 0 else 1 := by
    by_cases hn : n = 0 <;> simp [bitOf, hn]
  simp [clampDetail, hbit]

theorem clampDetail_eq_zero (a b c d : Nat) : clampDetail [a, b, c, d] = 0 ↔ a = 0 ∧ b = 0 ∧ c = 0 ∧ d = 0 := by
  rw [clampDetail_eq]
  repeat' split
  all_goals simp_all

theorem adoptNamed_wf {s : State} (mask : Word) (hm : s.ram.wf = true) : (adoptNamed mask s).ram.wf = true := by
  unfold adoptNamed
  rw [ifNamed_keeps (·.ram) (by simp), adoptModeLoad_eq, ifNamed]
  split
  · exact wf_storable.adoptLanes hm
  · exact hm

/-- An ADOPT applied completes with the records adopted, the code and detail of its clamps, and the four counts (R167). -/
theorem applyAdopt_completes {r : Request} {s : State} {mode load lanes link : Nat} (hm : s.ram.wf = true) (hslot : r.slot < 16)
    (hcounts : clampCounts r.param1 s = [mode, load, lanes, link]) :
    Completes r (if mode = 0 ∧ load = 0 ∧ lanes = 0 ∧ link = 0 then .ok else .clamped)
      ((if mode = 0 then 0 else 1) + (if load = 0 then 0 else 2) + (if lanes = 0 then 0 else 4) + (if link = 0 then 0 else 8))
      [pack8 (u8 mode) (u8 load) (u8 lanes) (u8 link)] (adoptNamed r.param1 s) (applyAdopt r s) := by
  have happly : applyAdopt r s = finish r (if mode = 0 ∧ load = 0 ∧ lanes = 0 ∧ link = 0 then .ok else .clamped)
      (clampDetail [mode, load, lanes, link]) [pack8 (u8 mode) (u8 load) (u8 lanes) (u8 link)] (adoptNamed r.param1 s) := by
    simp only [applyAdopt, hcounts, clampDetail_eq_zero]
    rfl
  rw [happly, clampDetail_eq]
  exact finish_completes _ _ (adoptNamed_wf r.param1 hm) hslot (Nat.le_of_ble_eq_true rfl)

/-- Settles O29: a row that the mask names runs `executeAdopt`, which applies the ADOPT at once, or holds it or applies it in the gap;
`applyAdopt_completes` says what the application leaves. -/
theorem adopt : Obligations.Adopt := by
  have row {c : Instr} {k : Nat} {s : State} {r : Request} (hrun : exec c s = .next (withTaken (adoptNaming k) executeAdopt s))
      (htaken : s.rqe.execution = some ⟨r, .taken⟩) (hkind : r.kind = 1) (hmask : r.param1.toNat < 16)
      (hk : r.param1.getLsbD k = true) : exec c s = .next (executeAdopt r s) := by
    rw [hrun, withTaken_runs htaken (adoptNaming_of_named hkind hmask hk)]
  constructor
  · intro s r htaken hm hslot hkind hmask hmode hload
    have happly : executeAdopt r s = applyAdopt r s := by
      rw [executeAdopt, adoptIsGap, names, names, hmode, hload]
      rfl
    refine ⟨_, applyAdopt r s, rfl, ?_, fun hk => happly ▸ row rfl htaken hkind hmask hk,
      fun hk => happly ▸ row rfl htaken hkind hmask hk⟩
    rintro lanes link rfl rfl
    have hcounts : clampCounts r.param1 s =
        [0, 0, if r.param1.getLsbD 2 then min 255 (laneClamps s) else 0,
          if r.param1.getLsbD 3 then min 255 (readLinkRecord s.ram).2 else 0] := by
      rw [clampCounts, names, names, hmode, hload]
      rfl
    have h := applyAdopt_completes hm hslot hcounts
    rw [adoptNamed, ifNamed_off hmode, ifNamed_off hload] at h
    simp only [if_true, true_and, Nat.zero_add] at h
    exact h
  · intro s r htaken hm hslot hkind hmask hgap
    have hisGap : adoptIsGap r = true := by simpa [adoptIsGap, names] using hgap
    refine ⟨executeAdopt r s, row rfl htaken hkind hmask, row rfl htaken hkind hmask, row rfl htaken hkind hmask,
      row rfl htaken hkind hmask, fun hbusy => ?_, fun hidle => ?_⟩
    · simp [executeAdopt, hisGap, gapRequest, setPhase, Option.isSome_iff_ne_none.mp hbusy]
    · have happly : executeAdopt r s = applyAdopt r s := by simp [executeAdopt, hisGap, gapRequest, hidle]
      rw [happly]
      refine ⟨_, _, rfl, rfl, ?_⟩
      rintro mode load lanes link rfl rfl rfl rfl
      have h := applyAdopt_completes (r := r) hm hslot (s := s) rfl
      rwa [adoptNamed, adoptModeLoad_eq] at h

end Sys2Proof.Machine
end

section
/-! PROOF. The bits of a lane word and the lane receivers' own events; the state after power-on reset. -/

namespace Sys2Proof.Machine

open Sys2Proof.Safety

/-! ### Lane words by bit time -/

/-- The ones counted for the parity check are the bits that are one. -/
theorem onesIn_eq_countP {w : Nat} (v : BitVec w) (low n : Nat) :
    onesIn v low n = (List.range n).countP fun i => v.getLsbD (low + i) := by
  unfold onesIn
  generalize List.range n = is
  induction is with
  | nil => rfl
  | cons i is ih =>
    rw [List.map_cons, List.sum_cons, List.countP_cons, ih, bitOf, Nat.add_comm]

/-- A tag of three bits by its bits, least significant first (R190). -/
theorem toNat_of_three_bits (v : BitVec 3) :
    v.toNat = bitOf (v.getLsbD 0) + 2 * bitOf (v.getLsbD 1) + 4 * bitOf (v.getLsbD 2) := by
  revert v
  decide

theorem laneWordFields_tag (w : BitVec 23) :
    (laneWordFields w).tag = bitOf (w.getLsbD 2) + 2 * bitOf (w.getLsbD 3) + 4 * bitOf (w.getLsbD 4) := by
  rw [laneWordFields, toNat_of_three_bits]
  simp

theorem laneWordFields_value (w : BitVec 23) {i : Nat} (hi : i < 16) :
    (laneWordFields w).value.getLsbD i = w.getLsbD (5 + i) := by
  simp [laneWordFields, hi]

theorem laneWordFields_parityOk (w : BitVec 23) :
    (laneWordFields w).parityOk = true ↔ ((List.range 21).countP fun i => w.getLsbD (1 + i)) % 2 = 0 := by
  rw [laneWordFields, onesIn_eq_countP, beq_iff_eq]

/-- Two of three samples decide a bit (R2). -/
theorem majorityBit_iff (a b c : Bool) : majorityBit a b c = true ↔ 2 ≤ bitOf a + bitOf b + bitOf c := by
  revert a b c
  decide

theorem majority_getLsbD {n : Nat} (a b c : BitVec n) (i : Nat) :
    (majority a b c).getLsbD i = majorityBit (a.getLsbD i) (b.getLsbD i) (c.getLsbD i) := by
  simp [majority, majorityBit]

/-- Settles O10: each receiver row is its own condition, and the fields of a word are read off its bits. -/
theorem laneReceiverEvents : Obligations.LaneReceiverEvents := by
  refine ⟨⟨fun l run s hrun => ?_, fun l s => ?_, fun l a b c s habc => ?_⟩, ⟨by decide, by decide, by decide, fun w => ?_⟩,
    fun n i a b c => ?_, fun l a b c s hrx => ?_⟩
  · show Host.Outcome.next (if _ then _ else _) = _
    simp only [laneIdleSamples, hrun, and_true]
    rfl
  · show Host.Outcome.next (if _ then _ else _) = _
    simp only [and_true]
    rfl
  · show Host.Outcome.next (if _ then _ else _) = _
    simp only [majorityBit_iff, habc, and_true]
    rfl
  · exact ⟨rfl, rfl, laneWordFields_tag w, fun _ => laneWordFields_value w, laneWordFields_parityOk w, rfl⟩
  · rw [majority_getLsbD, majorityBit_iff]
  · rw [exec_laneWordArrival, if_neg hrx]

/-! ### The state after power-on reset -/

theorem defaultTable_point {b g : Nat} (hb : b ≤ 13) (hg : g ≤ 3) : defaultTable.point b g = defaultPoint b g := by
  have hi : 4 * b + g < 56 := by omega
  have hdiv : (4 * b + g) / 4 = b := by omega
  have hmod : (4 * b + g) % 4 = g := by omega
  simp [Table.point, defaultTable, hi, hdiv, hmod]

theorem defaultTable_row {b : Nat} (hb : b ≤ 13) : defaultTable.row b = defaultRow b := by
  have hi : b < 14 := by omega
  simp [Table.row, defaultTable, hi]

/-- The RAM at reset holds the identity block and is zero beyond it (R171). -/
theorem resetMemory_readWord {i : Nat} (hi : i < 2048) : resetMemory.readWord i =
    if i = 0 then 0x00010620 else if i = 1 then 0x40100001 else if i = 2 then 0x00000120 else 0 := by
  have hzero : Memory.readWord [] i = 0 := by
    simp [Memory.readWord, Memory.readByte, pack8]
  by_cases hblock : i < 16
  · have hword := Memory.readWord_writeWords_at (identityBlock 1) (m := []) 0 i rfl hblock (by simpa [Config.ramWords] using hi)
    rw [Nat.zero_add] at hword
    rw [resetMemory, hword]
    interval_cases i <;> rfl
  · rw [resetMemory, Memory.readWord_writeWords_ne _ _ _ _ (.inr (by simpa [identityBlock] using hblock)), hzero,
      if_neg (by omega), if_neg (by omega), if_neg (by omega)]

/-- Settles O3: block by block, each the default its rule gives. -/
theorem powerOnReset : Obligations.PowerOnReset := by
  refine ⟨⟨fun i hi => resetMemory_readWord hi, fun l => ?_, rfl, rfl, rfl, rfl, rfl, rfl, rfl,
    fun b g hb hg => defaultTable_point hb hg, fun b hb => defaultTable_row hb, rfl, fun c => ?_, rfl, rfl, rfl, rfl, rfl, rfl, rfl,
    rfl, rfl, rfl, rfl, rfl⟩, fun s => rfl⟩
  · rw [State.reset_lanes_get]
    cases l <;> decide
  · cases c <;> rfl

/-! ### Every invariant at reset -/

theorem defaultTable_ordered : TableOrdered defaultTable := by
  refine ⟨fun b g hb hg => ?_, fun b g hb hg => ?_, fun b hb => ?_⟩
  · rw [defaultTable_point (by omega) hg, defaultTable_point (by omega) hg]
    simp only [defaultPoint]
    omega
  · rw [defaultTable_point hb (by omega), defaultTable_point hb (by omega)]
    simp only [defaultPoint]
    omega
  · rw [defaultTable_row (by omega), defaultTable_row (by omega)]
    interval_cases b <;> decide

theorem defaultTable_inRange : TableInRange defaultTable := by
  refine ⟨fun b g hb hg => ?_, fun b hb => ?_⟩
  · rw [defaultTable_point hb hg]
    simp only [defaultPoint]
    omega
  · rw [defaultTable_row hb]
    interval_cases b <;> decide

theorem reset_recordsInRange : RecordsInRange State.reset := by
  obtain ⟨solo, pillion, luggage, trailer⟩ := defaultLoad_inRange
  exact ⟨.inr (.inl rfl), .inr (.inl rfl), defaultMode_inRange, solo, pillion, luggage, trailer, defaultLink_inRange,
    fun l => State.reset_lanes_get l ▸ defaultSettings_inRange l⟩

theorem resetLink_consistent : LinkConsistent resetLink := by
  have hchannel : ChannelConsistent resetChannel := by
    unfold ChannelConsistent
    decide
  refine ⟨hchannel, hchannel, hchannel, by decide, by decide, by decide, by decide, by decide, fun c hc => ?_, by simp [resetLink]⟩
  cases c <;> exact absurd hc (by decide)

theorem reset_longListMatches : LongListMatches State.reset := by
  refine ⟨by decide, by decide, by decide, fun c => ?_⟩
  cases c <;> decide

/-- Settles O60: each invariant by its block's defaults. -/
theorem resetIsSafe : Obligations.ResetIsSafe where
  memory := Memory.writeWords_wf _ _ rfl
  alert := by
    unfold AlertFollows
    decide
  order := defaultTable_ordered
  range := defaultTable_inRange
  unit := ⟨by decide, by decide, by decide, ⟨by decide, by decide, by decide⟩, by decide, by simp [State.reset, resetUnit]⟩
  control := ⟨by decide, by decide, by decide, trivial⟩
  lanes l := State.reset_lanes_get l ▸ resetLane_consistent l
  link := resetLink_consistent
  long := reset_longListMatches
  engine := ⟨by decide, by decide, by decide, by simp [State.reset, resetEngine], by simp [State.reset, resetEngine]⟩
  records := reset_recordsInRange
  capture := by simp [State.reset, resetUnit]

end Sys2Proof.Machine
end

section
/-! PROOF. Saturation, signs and the grip observer's ranges: what stages 4 and 8 and the calibration bring a value into. -/

namespace Sys2Proof.Machine

open Sys2Proof.Safety

/-! ### Saturation and signs -/

theorem clampInt_eq_max_min {lo hi : Int} (v : Int) (h : lo ≤ hi) : clampInt lo hi v = max lo (min hi v) := by
  unfold clampInt
  repeat' split
  all_goals omega

theorem le_clampInt {lo hi : Int} (v : Int) (h : lo ≤ hi) : lo ≤ clampInt lo hi v := by
  rw [clampInt_eq_max_min v h]
  exact le_max_left _ _

theorem clampInt_le {lo hi : Int} (v : Int) (h : lo ≤ hi) : clampInt lo hi v ≤ hi := by
  rw [clampInt_eq_max_min v h]
  exact max_le h (min_le_left _ _)

theorem withSignOf_eq (ref : Int) (magnitude : Nat) : withSignOf ref magnitude = signOf ref * magnitude := by
  unfold withSignOf signOf
  split <;> simp

@[simp] theorem withSignOf_natAbs (ref : Int) (magnitude : Nat) : (withSignOf ref magnitude).natAbs = magnitude := by
  unfold withSignOf
  split <;> simp

/-! ### What stages 4, 6 and 8 leave -/

theorem stageLean_leanFine_inRange (mode : ModeRecord) (imu : LaneView) (leanPrev : Int) (rates : Rates) (dtMs : Nat)
    (vRef : Option Nat) : -6500000 ≤ (stageLean mode imu leanPrev rates dtMs vRef).leanFine ∧
      (stageLean mode imu leanPrev rates dtMs vRef).leanFine ≤ 6500000 :=
  ⟨le_clampInt _ (by decide), clampInt_le _ (by decide)⟩

theorem reductionAfter_le (mode : ModeRecord) (start : OpState) (status : SlipStatus) (slip : Int) (target rPrev : Nat) :
    reductionAfter mode start status slip target rPrev ≤ 1024 := by
  unfold reductionAfter
  split
  · have := clampInt_le (regulatorStep mode status slip target rPrev) (show (0 : Int) ≤ 1024 by decide)
    omega
  · omega

/-- A bucket of 256 starts afresh, so whatever moved the bucket, R101 leaves it below 256. -/
theorem spill_inRange {o : Observer} (hquiet : o.quiet ≤ 65535) (hobserved : o.observed ≤ 3) : ObserverInRange (spill o) := by
  unfold spill
  split
  · exact ⟨Nat.zero_le _, Nat.zero_le _, Nat.min_le_left _ _⟩
  · exact ⟨by omega, hquiet, hobserved⟩

theorem settle_inRange (mode : ModeRecord) (r : Nat) {o : Observer} (h : ObserverInRange o) : ObserverInRange (settle mode r o) := by
  obtain ⟨hbucket, -, hobserved⟩ := h
  have hquiet : (if r = 0 ∧ o.bucket = 0 then satInc 65535 o.quiet else 0) ≤ 65535 := by
    split
    · exact Nat.min_le_left _ _
    · omega
  unfold settle
  extract_lets quiet
  split
  · exact ⟨hbucket, Nat.zero_le _, (Nat.sub_le _ _).trans hobserved⟩
  · exact ⟨hbucket, hquiet, hobserved⟩

/-- Stage 8 keeps the observer's values in their ranges, whatever the mode record (R99, R101). -/
theorem observe_inRange (mode : ModeRecord) (start : OpState) (rPrev r : Nat) {o : Observer} (h : ObserverInRange o) :
    ObserverInRange (observe mode start rPrev r o) := by
  unfold observe
  split
  · exact settle_inRange mode r (spill_inRange h.2.1 h.2.2)
  · exact h

/-- The lean a calibration sets, in 10⁻⁵ degree, is within R50's limit (R55). -/
theorem initialLean_inRange (ay az : Int) : -6500000 ≤ initialLean ay az * 1000 ∧ initialLean ay az * 1000 ≤ 6500000 := by
  have habs : (initialLean ay az).natAbs ≤ 6500 := by
    rw [initialLean, withSignOf_natAbs]
    exact Nat.min_le_left _ _
  omega

end Sys2Proof.Machine
end

section
/-! PROOF. What one command can do to the values the FCU carries from frame to frame: one inversion lemma, `exec_unitMove`, and the
same for the envelope table, `exec_tableMove`; from them, that both stay in their ranges. -/

namespace Sys2Proof.Machine

open Sys2Proof.Safety

/-! ### The values carried -/

/-- What a computation in flight took of the values carried (R23). -/
structure TakenValues where
  leanPrev : Int
  rPrev : Nat
  observer : Observer

/-- The values the FCU carries from frame to frame, and those a computation in flight took of them (R23, R40, R85, R99, R30). -/
structure CarriedValues where
  leanFine : Int
  reduction : Nat
  observer : Observer
  escCount : Nat
  taken : Option TakenValues

/-- The values carried, of all the FCU holds. -/
def FrameUnit.carried (f : FrameUnit) : CarriedValues :=
  ⟨f.leanFine, f.reduction, f.observer, f.escCount, f.inFlight.map fun c => ⟨c.leanPrev, c.rPrev, c.observer⟩⟩

/-- The lean and R as a calibration's success sets them (R55, R95). -/
def CarriedValues.calibrated (v : CarriedValues) (avg : CalSums) : CarriedValues :=
  { v with leanFine := initialLean avg.ay avg.az * 1000, reduction := 0 }

theorem FrameUnit.calibrated_carried (f : FrameUnit) (avg : CalSums) : (f.calibrated avg).carried = f.carried.calibrated avg := rfl

/-- No computation in flight any more. -/
def CarriedValues.ended (v : CarriedValues) : CarriedValues := { v with taken := none }

theorem FrameUnit.ended_carried (f : FrameUnit) : ({ f with inFlight := none } : FrameUnit).carried = f.carried.ended := rfl

/-- What `UnitInRange` says, of the values carried. -/
def CarriedValues.InRange (v : CarriedValues) : Prop :=
  -6500000 ≤ v.leanFine ∧ v.leanFine ≤ 6500000 ∧ v.reduction ≤ 1024 ∧ ObserverInRange v.observer ∧ v.escCount ≤ 255 ∧
    ∀ w, v.taken = some w → -6500000 ≤ w.leanPrev ∧ w.leanPrev ≤ 6500000 ∧ w.rPrev ≤ 1024 ∧ ObserverInRange w.observer

theorem unitInRange_iff (f : FrameUnit) : UnitInRange f ↔ f.carried.InRange := by
  simp [UnitInRange, CarriedValues.InRange, FrameUnit.carried]

/-! ### The operations that keep them -/

@[simp] theorem startCalibration_carried (target : OpState) (s : State) :
    (startCalibration target s).fcu.carried = s.fcu.carried := by
  simp [startCalibration, FrameUnit.carried, Function.comp_def]

@[simp] theorem goCalibrate_carried (r : Request) (s : State) : (goCalibrate r s).fcu.carried = s.fcu.carried := by
  unfold goCalibrate
  repeat' split
  all_goals simp [acceptCalibration]

@[simp] theorem adoptNamed_carried (mask : Word) (s : State) : (adoptNamed mask s).fcu.carried = s.fcu.carried := by
  rw [adoptNamed_fcu]
  rfl

@[simp] theorem applyAdopt_carried (r : Request) (s : State) : (applyAdopt r s).fcu.carried = s.fcu.carried := by
  simp [applyAdopt]

@[simp] theorem clearNamed_carried (mask : Word) (s : State) : (clearNamed mask s).fcu.carried = s.fcu.carried := by
  unfold clearNamed
  rw [ifNamed_keeps (·.fcu.carried) (by simp), ifNamed_keeps (·.fcu.carried) (by simp),
    ifNamed_keeps (·.fcu.carried) (by simp), ifNamed_keeps (·.fcu.carried) (act := clearStickyFlags) fun _ => rfl]

@[simp] theorem applyClear_carried (r : Request) (s : State) : (applyClear r s).fcu.carried = s.fcu.carried := by
  simp [applyClear]

@[simp] theorem requestCapture_carried (r : Request) (s : State) : (requestCapture r s).fcu.carried = s.fcu.carried := by
  unfold requestCapture
  repeat' split
  all_goals simp [FrameUnit.carried]

@[simp] theorem abandonRunningCapture_carried (r : Request) (s : State) :
    (abandonRunningCapture r s).fcu.carried = s.fcu.carried := by
  unfold abandonRunningCapture
  split <;> simp [FrameUnit.carried]

@[simp] theorem unitNotices_carried (c : Computation) (r : Results) (s : State) :
    (unitNotices c r s).fcu.carried = s.fcu.carried := by
  simp [unitNotices, FrameUnit.carried]

@[simp] theorem publish_carried (c : Computation) (r : Results) (s : State) : (publish c r s).fcu.carried = s.fcu.carried := by
  simp [publish, FrameUnit.carried]

@[simp] theorem recordCapture_carried (c : Computation) (r : Results) (s : State) :
    (recordCapture c r s).fcu.carried = s.fcu.carried := by
  simp only [recordCapture]
  repeat' split
  all_goals simp [FrameUnit.carried]

/-! ### The operations that move them -/

/-- What one command can make of the values carried. -/
inductive UnitMove (s : State) : CarriedValues → Prop
  | kept : UnitMove s s.fcu.carried
  | reset : UnitMove s resetUnit.carried
  | escalationCleared : UnitMove s { s.fcu.carried with escCount := 0 }
  | begun : UnitMove s { s.fcu.carried with taken := some ⟨s.fcu.leanFine, previousReduction s, s.fcu.observer⟩ }
  | completed {c : Computation} : s.fcu.inFlight = some c →
    UnitMove s (s.fcu.step1 (compute c s.table)).carried.ended
  | calibrated {c : Computation} (avg : CalSums) : s.fcu.inFlight = some c →
    UnitMove s ((s.fcu.step1 (compute c s.table)).carried.calibrated avg).ended

theorem UnitMove.ofKept {s : State} {v : CarriedValues} (h : v = s.fcu.carried) : UnitMove s v := h ▸ .kept

theorem UnitMove.ofReset {s : State} {f : FrameUnit} (h : f = resetUnit) : UnitMove s f.carried := h ▸ .reset

theorem goActive_unitMove (r : Request) (s : State) : UnitMove s (goActive r s).fcu.carried := by
  have cleared : UnitMove s (clearEscalation s).fcu.carried := .escalationCleared
  unfold goActive
  cases s.sc.op with
  | dormant =>
    dsimp only
    split
    · simpa using cleared
    · exact .ofKept (by simp)
  | calibrating => exact .ofKept (by simp)
  | standby | active => simpa using cleared
  | limp =>
    dsimp only
    split
    · exact .ofKept (by simp)
    · simpa using cleared

theorem startFrame_unitMove (s : State) : UnitMove s (startFrame s).fcu.carried := by
  have begun : (beginComputation (takeComputation s) (ageLanes { s with ft := s.ft.tick })).fcu.carried =
      { s.fcu.carried with taken := some ⟨s.fcu.leanFine, previousReduction s, s.fcu.observer⟩ } := by
    simp [beginComputation, FrameUnit.carried, takeComputation]
  unfold startFrame
  split
  · exact begun ▸ .begun
  · exact .kept

/-- A calibration frame sets the lean and R only where the calibration succeeds (R124, R125, R55). -/
theorem calibrationFrame_carried (p : Snapshot) (s : State) : (calibrationFrame p s).fcu.carried = s.fcu.carried ∨
    ∃ avg, (calibrationFrame p s).fcu.carried = s.fcu.carried.calibrated avg := by
  have succeeds (avg : CalSums) (t : State) : (succeedCalibration avg t).fcu.carried = t.fcu.carried.calibrated avg := by
    simp [succeedCalibration, FrameUnit.calibrated_carried]
  simp only [calibrationFrame]
  split
  · exact .inl (by simp)
  split
  · exact .inl (by simp)
  split
  · exact .inl rfl
  split
  · exact .inl (by simp)
  · exact .inr ⟨_, succeeds _ _⟩

theorem takeReport_carried (c : Computation) (r : Results) (s : State) : (takeReport c r s).fcu.carried = s.fcu.carried ∨
    ∃ avg, (takeReport c r s).fcu.carried = s.fcu.carried.calibrated avg := by
  simp only [takeReport]
  cases s.sc.op with
  | dormant | standby => exact .inl rfl
  | calibrating =>
    dsimp only
    split
    · exact calibrationFrame_carried _ _
    · exact .inl rfl
  | active =>
    dsimp only
    split <;> exact .inl (by simp)
  | limp => exact .inl (by simp)

theorem completeInFlight_unitMove (s : State) : UnitMove s (completeInFlight s).fcu.carried := by
  unfold completeInFlight
  split
  · next c hc =>
    simp only [completeComputation, throughReport, FrameUnit.ended_carried, recordCapture_carried, publish_carried]
    obtain h | ⟨avg, h⟩ := takeReport_carried c (compute c s.table)
      (unitNotices c (compute c s.table) (makeDeposits c (compute c s.table) { s with fcu := s.fcu.step1 (compute c s.table) }))
    · rw [h]
      simpa using UnitMove.completed hc
    · rw [h]
      simpa using UnitMove.calibrated avg hc
  · exact .kept

/-! ### One command, one step -/

/-- What holds before a row and of what its request's execution leaves holds of what the row leaves. -/
theorem withTaken_keeps {P : State → Prop} {belongs : Request → Bool} {run : Request → State → State} {s : State} (h : P s)
    (hrun : ∀ r, P (run r s)) : P (withTaken belongs run s) := by
  unfold withTaken
  split
  · split
    · exact hrun _
    · exact h
  · exact h

/-- What holds of a gap request applied and of one that waits holds of the gap request's execution. -/
theorem gapRequest_keeps {P : State → Prop} {apply : Request → State → State} {r : Request} {s : State}
    (happly : P (apply r s)) (hwait : P (setPhase r .waitingGap s)) : P (gapRequest apply r s) := by
  unfold gapRequest
  split
  · exact happly
  · exact hwait

@[simp] theorem executeAdopt_carried (r : Request) (s : State) : (executeAdopt r s).fcu.carried = s.fcu.carried := by
  unfold executeAdopt
  split
  · exact gapRequest_keeps (P := fun t => t.fcu.carried = s.fcu.carried) (applyAdopt_carried r s) rfl
  · exact applyAdopt_carried r s

@[simp] theorem executeClear_carried (r : Request) (s : State) : (executeClear r s).fcu.carried = s.fcu.carried := by
  unfold executeClear
  split
  · exact gapRequest_keeps (P := fun t => t.fcu.carried = s.fcu.carried) (applyClear_carried r s) rfl
  · exact applyClear_carried r s

@[simp] theorem applyWaiting_carried (r : Request) (s : State) : (applyWaiting r s).fcu.carried = s.fcu.carried := by
  unfold applyWaiting
  repeat' split
  all_goals simp

/-- Every command moves the values carried as `UnitMove` says. -/
theorem exec_unitMove {c : Instr} {s t : State} (h : exec c s = .next t) : UnitMove s t.fcu.carried := by
  cases c <;> (injection h with h; subst h)
  case powerOnReset => exact .ofReset rfl
  case softReset =>
    split
    · exact .ofReset rfl
    · exact .kept
  case frameStart => exact startFrame_unitMove s
  case computationComplete => exact completeInFlight_unitMove s
  case modeGoActive =>
    exact withTaken_keeps (P := fun t => UnitMove s t.fcu.carried) .kept fun r => goActive_unitMove r s
  case tableDump =>
    exact withTaken_keeps (P := fun t => UnitMove s t.fcu.carried) .kept fun r =>
      gapRequest_keeps (P := fun t => UnitMove s t.fcu.carried) .kept .kept
  case refusedKind | refusedRange | adoptMode | adoptLoad | adoptLane | adoptLink | clearSticky | clearLane | clearChannelCounts
      | clearNoticeHeader | tableLoad | modeGoDormant | modeGoStandby | modeGoCalibrate | abandonTransition | abandonCapture
      | channelStop | channelResume | channelRestart | capture =>
    exact withTaken_keeps (P := fun t => UnitMove s t.fcu.carried) .kept fun r => .ofKept (by simp)
  case hostRamWrite | attentionArrival | linkGrant | summaryWrite | summaryEnableWrite | registerWriteIgnored =>
    exact .ofKept (by simp)
  all_goals split <;> exact .ofKept (by simp)

/-- One step idles on an empty queue, or runs the command at its front. -/
theorem step_cases {s t : State} (h : step s = .next t) :
    t = s ∨ ∃ c rest, s.pending = c :: rest ∧ exec c (s.withPending rest) = .next t := by
  unfold step at h
  split at h
  · injection h with h
    exact .inl h.symm
  · next c rest hq => exact .inr ⟨c, rest, hq, h⟩

/-! ### The envelope table -/

/-- What one command can make of the envelope table: a load installs a candidate that breaks no order condition (R72). -/
inductive TableMove (s : State) : Table → Prop
  | kept : TableMove s s.table
  | reset : TableMove s defaultTable
  | loaded (p : LoadRange) : firstViolation (candidate s.ram s.table p) = none → TableMove s (candidate s.ram s.table p)

theorem TableMove.ofKept {s : State} {t : Table} (h : t = s.table) : TableMove s t := h ▸ .kept

theorem applyLoad_tableMove (r : Request) (s : State) : TableMove s (applyLoad r s).table := by
  simp only [applyLoad]
  split
  · exact .ofKept (by simp)
  · next h => simpa using TableMove.loaded (loadRange r) h

theorem executeLoad_tableMove (r : Request) (s : State) : TableMove s (executeLoad r s).table := by
  unfold executeLoad
  split
  · exact .ofKept (by simp)
  · exact gapRequest_keeps (P := fun t => TableMove s t.table) (applyLoad_tableMove r s) .kept

theorem applyWaiting_tableMove (r : Request) (s : State) : TableMove s (applyWaiting r s).table := by
  unfold applyWaiting
  split
  · exact .ofKept (by simp)
  split
  · exact .ofKept (by simp)
  split
  · exact applyLoad_tableMove r s
  split
  · exact .ofKept (by simp)
  · exact .kept

/-- Every command moves the table as `TableMove` says. -/
theorem exec_tableMove {c : Instr} {s t : State} (h : exec c s = .next t) : TableMove s t.table := by
  cases c <;> (injection h with h; subst h)
  case powerOnReset => exact .reset
  case softReset =>
    split
    · exact .reset
    · exact .kept
  case gapRequestApply =>
    split
    · exact applyWaiting_tableMove _ s
    · exact .kept
  case tableLoad => exact withTaken_keeps (P := fun t => TableMove s t.table) .kept fun r => executeLoad_tableMove r s
  case tableDump =>
    exact withTaken_keeps (P := fun t => TableMove s t.table) .kept fun r =>
      gapRequest_keeps (P := fun t => TableMove s t.table) .kept .kept
  case refusedKind | refusedRange | adoptMode | adoptLoad | adoptLane | adoptLink | clearSticky | clearLane | clearChannelCounts
      | clearNoticeHeader | modeGoDormant | modeGoStandby | modeGoActive | modeGoCalibrate | abandonTransition | abandonCapture
      | channelStop | channelResume | channelRestart | capture =>
    exact withTaken_keeps (P := fun t => TableMove s t.table) .kept fun r => .ofKept (by simp)
  case frameStart | computationComplete | hostRamWrite | attentionArrival | linkGrant | summaryWrite | summaryEnableWrite
      | registerWriteIgnored =>
    exact .ofKept (by simp)
  all_goals split <;> exact .ofKept (by simp)

end Sys2Proof.Machine
end

section
/-! PROOF. The values the FCU carries and the envelope table stay in their ranges through every step. -/

namespace Sys2Proof.Machine

open Sys2Proof.Safety

/-! ### The candidate of a load -/

theorem candidate_point (m : Memory) (t : Table) (p : LoadRange) {b g : Nat} (hb : b ≤ 13) (hg : g ≤ 3) :
    (candidate m t p).point b g = if p.namesPoint b g then (imagePoint m b g).clamped else t.point b g := by
  have hi : 4 * b + g < 56 := by omega
  have hdiv : (4 * b + g) / 4 = b := by omega
  have hmod : (4 * b + g) % 4 = g := by omega
  simp [Table.point, candidate, hi, hdiv, hmod]

theorem candidate_row (m : Memory) (t : Table) (p : LoadRange) {b : Nat} (hb : b ≤ 13) :
    (candidate m t p).row b = if p.namesRow b then (imageRow m b).clamped else t.row b := by
  have hi : b < 14 := by omega
  simp [Table.row, candidate, hi]

/-- A load replaces points and rows by clamped ones alone, so its candidate is in range when the table in use is (R69, R70). -/
theorem candidate_inRange (m : Memory) {t : Table} (p : LoadRange) (h : TableInRange t) : TableInRange (candidate m t p) := by
  refine ⟨fun b g hb hg => ?_, fun b hb => ?_⟩
  · rw [candidate_point m t p hb hg]
    split
    · simp [EnvelopePoint.clamped, le_clampNat, clampNat_le]
    · exact h.1 b g hb hg
  · rw [candidate_row m t p hb]
    split
    · simp [RadiusRow.clamped, le_clampNat, clampNat_le]
    · exact h.2 b hb

theorem TableMove.inRange {s : State} {t : Table} (h : TableMove s t) (hs : TableInRange s.table) : TableInRange t := by
  cases h with
  | kept => exact hs
  | reset => exact defaultTable_inRange
  | loaded p _ => exact candidate_inRange s.ram p hs

/-! ### The values carried -/

theorem resetUnit_inRange : UnitInRange resetUnit := resetIsSafe.unit

theorem previousReduction_le (s : State) : previousReduction s ≤ s.fcu.reduction := by
  unfold previousReduction
  split <;> omega

/-- The results of a completion are in range, the computation's own values being so (R50, R86, R88, R99, R101). -/
theorem step1_inRange {f : FrameUnit} {c : Computation} (t : Table) (hf : UnitInRange f) (hc : f.inFlight = some c) :
    UnitInRange (f.step1 (compute c t)) := by
  obtain ⟨-, -, -, -, hesc, htaken⟩ := hf
  obtain ⟨-, -, -, hobserver⟩ := htaken c hc
  have hlean := stageLean_leanFine_inRange c.mode c.snapshot.imu c.leanPrev (compute c t).rates c.dtMs (compute c t).speeds.vRef
  refine ⟨hlean.1, hlean.2, reductionAfter_le _ _ _ _ _ _, observe_inRange _ _ _ _ hobserver, ?_, htaken⟩
  simp only [FrameUnit.step1]
  split
  · exact Nat.min_le_left _ _
  · exact hesc

theorem CarriedValues.InRange.ended {v : CarriedValues} (h : v.InRange) : v.ended.InRange := by
  obtain ⟨hlow, hhigh, hreduction, hobserver, hesc, -⟩ := h
  exact ⟨hlow, hhigh, hreduction, hobserver, hesc, by simp [CarriedValues.ended]⟩

theorem CarriedValues.InRange.calibrated {v : CarriedValues} (h : v.InRange) (avg : CalSums) : (v.calibrated avg).InRange := by
  obtain ⟨-, -, -, hobserver, hesc, htaken⟩ := h
  obtain ⟨hlow, hhigh⟩ := initialLean_inRange avg.ay avg.az
  exact ⟨hlow, hhigh, Nat.zero_le _, hobserver, hesc, htaken⟩

theorem UnitMove.inRange {s : State} {v : CarriedValues} (h : UnitMove s v) (hs : UnitInRange s.fcu) : v.InRange := by
  have hv := (unitInRange_iff s.fcu).mp hs
  have ⟨hlow, hhigh, hreduction, hobserver, hesc, htaken⟩ := hv
  cases h with
  | kept => exact hv
  | reset => exact (unitInRange_iff _).mp resetUnit_inRange
  | escalationCleared => exact ⟨hlow, hhigh, hreduction, hobserver, Nat.zero_le _, htaken⟩
  | begun =>
    refine ⟨hlow, hhigh, hreduction, hobserver, hesc, ?_⟩
    rintro w ⟨⟩
    exact ⟨hlow, hhigh, (previousReduction_le s).trans hreduction, hobserver⟩
  | completed hc => exact ((unitInRange_iff _).mp (step1_inRange s.table hs hc)).ended
  | calibrated avg hc => exact (((unitInRange_iff _).mp (step1_inRange s.table hs hc)).calibrated avg).ended

/-- Settles O53: one step moves the values carried as `UnitMove` says and the table as `TableMove` says, and each of these moves
stays in range. -/
theorem unitStaysInRange : Obligations.UnitStaysInRange := by
  intro s t hunit htable hstep
  obtain rfl | ⟨c, rest, -, hexec⟩ := step_cases hstep
  · exact ⟨hunit, htable⟩
  · exact ⟨(unitInRange_iff _).mpr ((exec_unitMove hexec).inRange hunit), (exec_tableMove hexec).inRange htable⟩

end Sys2Proof.Machine
end

section
/-! PROOF. Stages 2 to 5 of a computation: the table's interpolation, the arctangent table, and what each stage leaves. -/

namespace Sys2Proof.Machine

open Sys2Proof.Safety

/-! ### Interpolation (R65) -/

theorem interpolate_cap (p : Nat → Nat) : interpolate p 6500 = p 13 := rfl

theorem interpolate_of_lt (p : Nat → Nat) {m : Nat} (hm : m < 6500) : interpolate p m =
    ((p (m / 500) : Int) + (((p (m / 500 + 1) : Int) - p (m / 500)) * (m % 500 : Nat)).tdiv 500).toNat := by
  have hw : m - 500 * (m / 500) = m % 500 := by omega
  simp only [interpolate, truncDiv, hw]
  rw [if_neg (by omega)]

/-- A part of a rise is at most the rise. -/
theorem part_le (d : Nat) {w n : Nat} (hw : w ≤ n) : d * w / n ≤ d :=
  Nat.div_le_of_le_mul ((Nat.mul_comm d w).trans_le (Nat.mul_le_mul_right d hw))

/-- The truncated straight line from `a` to `b` stays between its ends, whether it rises or falls. -/
theorem line_between (a b : Nat) {w : Nat} (hw : w ≤ 500) :
    (min a b : Int) ≤ a + (((b : Int) - a) * w).tdiv 500 ∧ a + (((b : Int) - a) * w).tdiv 500 ≤ (max a b : Int) := by
  have hpart (d : Nat) : ((d : Int) * w).tdiv 500 = (d * w / 500 : Nat) := rfl
  obtain hab | hab := Nat.le_total a b
  · have hrise : (b : Int) - a = (b - a : Nat) := by omega
    have := part_le (b - a) hw
    rw [hrise, hpart]
    omega
  · have hfall : (b : Int) - a = -(a - b : Nat) := by omega
    have := part_le (a - b) hw
    rw [hfall, neg_mul, Int.neg_tdiv, hpart]
    omega

/-- Below the cap, the interpolated value is the truncated straight line between two breakpoints, and lies between their values. -/
theorem interpolate_line (p : Nat → Nat) {m : Nat} (hm : m < 6500) :
    (interpolate p m : Int) = p (m / 500) + (((p (m / 500 + 1) : Int) - p (m / 500)) * (m % 500 : Nat)).tdiv 500 ∧
      min (p (m / 500)) (p (m / 500 + 1)) ≤ interpolate p m ∧ interpolate p m ≤ max (p (m / 500)) (p (m / 500 + 1)) := by
  obtain ⟨hlow, hhigh⟩ := line_between (p (m / 500)) (p (m / 500 + 1)) (w := m % 500) (by omega)
  rw [interpolate_of_lt p hm]
  omega

theorem interpolate_breakpoint (p : Nat → Nat) {m : Nat} (hm : m ≤ 6500) (h : m % 500 = 0) :
    interpolate p m = p (m / 500) := by
  obtain rfl | hlt := Nat.eq_or_lt_of_le hm
  · exact interpolate_cap p
  · simp [interpolate_of_lt p hlt, h]

/-! ### The arctangent table (R48) -/

theorem angleOf_segment {k f : Nat} (hk : k < 9) (hf : f < 1024) : angleOf (1024 * k + f) =
    arctanTable.getD k 0 + (arctanTable.getD (k + 1) 0 - arctanTable.getD k 0) * f / 1024 := by
  have hdiv : (1024 * k + f) / 1024 = k := by omega
  have hmod : 1024 * k + f - 1024 * k = f := by omega
  simp only [angleOf, hdiv, hmod]
  rw [if_neg (by omega)]

theorem angleOf_point {k : Nat} (hk : k ≤ 9) : angleOf (1024 * k) = arctanTable.getD k 0 := by
  interval_cases k <;> rfl

theorem arctanTable_mono {i j : Nat} (hij : i ≤ j) (hj : j ≤ 9) : arctanTable.getD i 0 ≤ arctanTable.getD j 0 := by
  have hall : ∀ j ≤ 9, ∀ i ≤ j, arctanTable.getD i 0 ≤ arctanTable.getD j 0 := by decide
  exact hall j hj i hij

theorem angleOf_segment_le {k f : Nat} (hk : k < 9) (hf : f < 1024) :
    angleOf (1024 * k + f) ≤ angleOf (1024 * (k + 1)) := by
  have hstep := arctanTable_mono (show k ≤ k + 1 by omega) (by omega)
  have hpart := part_le (arctanTable.getD (k + 1) 0 - arctanTable.getD k 0) hf.le
  rw [angleOf_segment hk hf, angleOf_point (show k + 1 ≤ 9 by omega)]
  omega

/-- The angle never falls as the tangent grows: within a segment by its slope, across segments by the points between. -/
theorem angleOf_mono {a b : Nat} (hab : a ≤ b) (hb : b ≤ 9216) : angleOf a ≤ angleOf b := by
  obtain ⟨k, f, hf, rfl⟩ : ∃ k f, f < 1024 ∧ a = 1024 * k + f := ⟨a / 1024, a % 1024, by omega, by omega⟩
  obtain ⟨j, g, hg, rfl⟩ : ∃ j g, g < 1024 ∧ b = 1024 * j + g := ⟨b / 1024, b % 1024, by omega, by omega⟩
  have point_le : angleOf (1024 * j) ≤ angleOf (1024 * j + g) := by
    obtain hj | rfl : j < 9 ∨ g = 0 := by omega
    · rw [angleOf_segment hj hg, angleOf_point hj.le]
      exact Nat.le_add_right _ _
    · exact le_rfl
  obtain hkj | rfl : k < j ∨ k = j := by omega
  · calc angleOf (1024 * k + f) ≤ angleOf (1024 * (k + 1)) := angleOf_segment_le (by omega) hf
      _ ≤ angleOf (1024 * j) := by
        rw [angleOf_point (by omega), angleOf_point (by omega)]
        exact arctanTable_mono hkj (by omega)
      _ ≤ angleOf (1024 * j + g) := point_le
  · obtain hk | ⟨rfl, rfl⟩ : k < 9 ∨ f = 0 ∧ g = 0 := by omega
    · rw [angleOf_segment hk hf, angleOf_segment hk hg]
      gcongr
      omega
    · exact le_rfl

theorem angleOf_le {tau : Nat} (h : tau ≤ 9216) : angleOf tau ≤ 6604 := angleOf_mono h le_rfl

theorem refFine_natAbs_le (band : Band) {tau : Nat} (yaw ay : Int) (h : tau ≤ 9216) : (refFine band tau yaw ay).natAbs ≤ 6604000 := by
  have := angleOf_le h
  simp only [refFine, withSignOf_natAbs]
  omega

/-! ### Tangents and the initial lean (R46, R47, R55) -/

theorem gravityTau_eq (ay : Int) {az : Int} (h : 0 < az) : gravityTau ay az = ay.natAbs * 4096 / az.toNat := by
  obtain ⟨n, rfl⟩ := Int.eq_ofNat_of_zero_le h.le
  rfl

theorem initialLean_eq (ay : Int) {az : Int} (h : 0 < az) :
    initialLean ay az = signOf ay * min 6500 (angleOf (min 9216 (ay.natAbs * 4096 / az.toNat)) : Nat) := by
  rw [initialLean, withSignOf_eq, gravityTau_eq ay h]
  push_cast [tauCap]
  rfl

/-! ### Stage 2 (R41, R42) -/

theorem LaneView.available_iff (v : LaneView) : v.available = true ↔ Available v := by
  simp [LaneView.available, Available]

theorem correctedRate_eq (raw bias : Int) : correctedRate raw bias = max (-32767) (min 32767 (raw - bias)) :=
  clampInt_eq_max_min _ (by decide)

theorem stageRates_eq (imu : LaneView) (biasRoll biasYaw : Int) :
    (stageRates imu biasRoll biasYaw).roll = (if Available imu then correctedRate (imu.signed 0) biasRoll else 0) ∧
    (stageRates imu biasRoll biasYaw).yaw = (if Available imu then correctedRate (imu.signed 1) biasYaw else 0) := by
  simp only [stageRates, LaneView.available_iff]
  split <;> exact ⟨rfl, rfl⟩

/-! ### Stage 3 (R80, R81) -/

theorem correctedSpeed_eq (v : LaneView) (k : Nat) :
    correctedSpeed v k = if Available v then some ((v.slot.getD 0 0).toNat * k / 32768) else none := by
  simp only [correctedSpeed, LaneView.available_iff]
  rfl

/-- The reference is FRONT's corrected speed where that lane is available, else REAR's, else none (R81). -/
theorem stageSpeeds_reference (t : Table) (prevLean : Int) (front rear : LaneView) (x : Speeds)
    (h : stageSpeeds t prevLean front rear = x) :
    if Available front then x.source = .front ∧ x.vRef = x.front
    else if Available rear then x.source = .rear ∧ x.vRef = x.rear
    else x.source = .none ∧ x.vRef = none := by
  subst h
  simp only [stageSpeeds, correctedSpeed_eq]
  split
  · exact ⟨rfl, rfl⟩
  split
  · exact ⟨rfl, rfl⟩
  · exact ⟨rfl, rfl⟩

/-! ### Stage 4 (R43 to R50) -/

theorem chooseBand_eq (imu : LaneView) (vRef : Option Nat) (az : Int) (vKinMin vAccMax : Nat) :
    chooseBand imu.available vRef az vKinMin vAccMax =
      if ¬Available imu ∨ vRef = none then .none
      else if vKinMin ≤ vRef.getD 0 then .kinematic
      else if vRef.getD 0 < vAccMax ∧ 4904 ≤ az then .gravity else .none := by
  simp only [← LaneView.available_iff]
  cases imu.available <;> cases vRef <;> simp [chooseBand]

/-- The gravity band is chosen only where the vertical acceleration is well above 0 (R45). -/
theorem chooseBand_gravity {available : Bool} {vRef : Option Nat} {az : Int} {vKinMin vAccMax : Nat}
    (h : chooseBand available vRef az vKinMin vAccMax = .gravity) : 4904 ≤ az := by
  unfold chooseBand at h
  repeat' split at h
  all_goals simp_all

theorem bandTau_kinematic (yaw : Int) (v : Nat) (ay az : Int) :
    ((bandTau .kinematic yaw v ay az).1 : Int) = min (9216 : Int) (kinematicTangent yaw v) := by
  push_cast [bandTau, tauCap]
  rfl

theorem bandTau_gravity (yaw : Int) (v : Nat) (ay : Int) {az : Int} (h : 0 < az) :
    ((bandTau .gravity yaw v ay az).1 : Int) = min 9216 (ay.natAbs * 4096 / az) := by
  simp only [bandTau, tauCap, gravityTau_eq ay h]
  push_cast [Int.toNat_of_nonneg h.le]
  rfl

theorem refFine_kinematic (tau : Nat) (yaw ay : Int) : refFine .kinematic tau yaw ay = signOf yaw * (1000 * angleOf tau) := by
  rw [mul_comm (1000 : Int)]
  exact withSignOf_eq _ _

theorem refFine_gravity (tau : Nat) (yaw ay : Int) : refFine .gravity tau yaw ay = signOf ay * (1000 * angleOf tau) := by
  rw [mul_comm (1000 : Int)]
  exact withSignOf_eq _ _

theorem predict_eq (imu : LaneView) (leanPrev : Int) (biasRoll biasYaw : Int) (dtMs : Nat) :
    predict imu.available leanPrev (stageRates imu biasRoll biasYaw).roll dtMs =
      leanPrev + (stageRates imu biasRoll biasYaw).roll * dtMs := by
  unfold predict stageRates
  cases imu.available <;> simp

/-- The lean before its clamp is the model's correction of its prediction (R43, R44, R49). -/
theorem leanUnclamped_eq (c : Computation) (t : Table) : leanUnclamped c (compute c t) =
    corrected (compute c t).lean.band (predict c.snapshot.imu.available c.leanPrev (compute c t).rates.roll c.dtMs)
      (refFine (compute c t).lean.band (compute c t).lean.tau (compute c t).rates.yaw (c.snapshot.imu.signed 3)) c.mode.alpha := by
  have hpred : predict c.snapshot.imu.available c.leanPrev (compute c t).rates.roll c.dtMs = leanPrediction c (compute c t) :=
    predict_eq _ _ _ _ _
  unfold leanUnclamped leanReference
  rw [hpred]
  cases (compute c t).lean.band with
  | none => rfl
  | kinematic => rw [refFine_kinematic]; rfl
  | gravity => rw [refFine_gravity]; rfl

/-- Stage 4: band, tangent, and the lean clamped (R45 to R50). -/
theorem compute_lean (c : Computation) (t : Table) :
    (compute c t).lean.band = chooseBand c.snapshot.imu.available (compute c t).speeds.vRef (c.snapshot.imu.signed 4) c.mode.vKinMin
        c.mode.vAccMax ∧
    (compute c t).lean.tau = (bandTau (compute c t).lean.band (compute c t).rates.yaw ((compute c t).speeds.vRef.getD 0)
        (c.snapshot.imu.signed 3) (c.snapshot.imu.signed 4)).1 ∧
    (compute c t).lean.leanFine = max (-6500000) (min 6500000 (leanUnclamped c (compute c t))) := by
  refine ⟨rfl, rfl, ?_⟩
  rw [leanUnclamped_eq, ← clampInt_eq_max_min _ (by decide)]
  rfl

/-! ### The statement -/

/-- Settles O24: the tables by `interpolate_line` and `angleOf_segment`, each stage by its own equations. -/
theorem stagesTwoToFive : Obligations.StagesTwoToFive := by
  refine ⟨fun p m hm => ⟨?_, interpolate_breakpoint p hm, interpolate_line p⟩,
    ⟨fun k hk => angleOf_point hk, fun k f hk hf => ?_, fun a b => angleOf_mono,
      fun band tau yaw ay => refFine_natAbs_le band yaw ay, fun ay az => initialLean_eq ay⟩, ?_⟩
  · rintro rfl
    exact interpolate_cap p
  · rw [angleOf_point hk.le, angleOf_point hk, angleOf_segment hk hf]
  · rintro c t r rate v az rfl hrate rfl rfl
    have hcorrected (k : Nat) (bias : Int) : rate k bias = correctedRate (c.snapshot.imu.signed k) bias :=
      (hrate k bias).trans (correctedRate_eq _ _).symm
    obtain ⟨hroll, hyaw⟩ := stageRates_eq c.snapshot.imu c.biasRoll c.biasYaw
    obtain ⟨hband, htau, hlean⟩ := compute_lean c t
    refine ⟨⟨?_, ?_, rfl, rfl⟩, ⟨rfl, rfl, correctedSpeed_eq _ _, correctedSpeed_eq _ _, stageSpeeds_reference _ _ _ _ _ rfl⟩,
      ⟨hband.trans (chooseBand_eq _ _ _ _ _), ?_, hlean⟩, rfl, rfl⟩
    · rw [hcorrected]
      exact hroll
    · rw [hcorrected]
      exact hyaw
    · rw [htau]
      cases hb : (compute c t).lean.band with
      | none => rfl
      | kinematic => exact bandTau_kinematic _ _ _ _
      | gravity =>
        have haz := chooseBand_gravity (hband.symm.trans hb)
        exact bandTau_gravity _ _ _ (by omega)

end Sys2Proof.Machine
end

section
/-! PROOF. The order check of R71: its comparisons as one list in the order of `orderPair`, and what it finds. And interpolation down
a falling column, by which the order conditions bound every ceiling (R64). -/

namespace Sys2Proof.Machine

open Sys2Proof.Safety

/-! ### The comparisons in order (R71) -/

/-- Two nested ranges in order are one range, the place split into quotient and remainder. -/
theorem flatMap_range_map {α : Type} (n k : Nat) (f : Nat → Nat → α) :
    ((List.range n).flatMap fun i => (List.range k).map (f i)) = (List.range (n * k)).map fun j => f (j / k) (j % k) := by
  induction n with
  | zero => simp
  | succ n ih =>
    rw [List.range_succ, List.flatMap_append, ih, Nat.succ_mul, List.range_add, List.map_append, List.flatMap_singleton,
      List.map_map]
    refine congrArg _ (List.map_congr_left fun i hi => ?_)
    have hik := List.mem_range.mp hi
    have hk : 0 < k := by omega
    rw [Function.comp_apply, Nat.mul_comm n k, Nat.mul_add_div hk, Nat.div_eq_of_lt hik, Nat.add_zero, Nat.mul_add_mod,
      Nat.mod_eq_of_lt hik]

/-- A comparison as `orderPair` gives it. -/
def Comparison.ofPair (c : Nat × Nat × Nat) : Comparison := ⟨c.1, c.2.1, c.2.2⟩

theorem violated_ofPair (c : Nat × Nat × Nat) : (Comparison.ofPair c).violated = decide (c.2.1 < c.2.2) := rfl

/-- Two entries are the range of two, told apart by the place's remainder. -/
theorem pair_eq_range_map {α : Type} (x y : α) : [x, y] = (List.range 2).map fun i => if i = 0 then x else y := rfl

/-- The scan of R71 makes the comparisons of `orderPair` in their order. -/
theorem comparisons_eq (t : Table) : comparisons t = (List.range 214).map fun i => .ofPair (orderPair t i) := by
  have ha : comparisonsA t = (List.range 104).map fun i => .ofPair (orderPair t i) := by
    simp only [comparisonsA, pair_eq_range_map, flatMap_range_map]
    refine List.map_congr_left fun i hi => ?_
    have hi : i < 104 := List.mem_range.mp hi
    have hmod : i % 26 % 2 = i % 2 := by omega
    simp only [orderPair, if_pos hi, hmod, Comparison.ofPair]
    split <;> simp only [Nat.mul_comm 4]
  have hb : comparisonsB t = (List.range 84).map fun i => .ofPair (orderPair t (104 + i)) := by
    simp only [comparisonsB, pair_eq_range_map, flatMap_range_map]
    refine List.map_congr_left fun i hi => ?_
    have hi : i < 84 := List.mem_range.mp hi
    have hmod : i % 6 % 2 = i % 2 := by omega
    have hplace : (104 + i) % 2 = i % 2 := by omega
    simp only [orderPair, if_neg (show ¬104 + i < 104 by omega), if_pos (show 104 + i < 188 by omega), Nat.add_sub_cancel_left,
      hmod, hplace, Comparison.ofPair]
    split <;> simp only [Nat.mul_comm 4]
  have hc : comparisonsC t = (List.range 26).map fun i => .ofPair (orderPair t (188 + i)) := by
    simp only [comparisonsC, pair_eq_range_map, flatMap_range_map]
    refine List.map_congr_left fun i hi => ?_
    have hplace : (188 + i) % 2 = i % 2 := by omega
    simp only [orderPair, if_neg (show ¬188 + i < 104 by omega), if_neg (show ¬188 + i < 188 by omega), Nat.add_sub_cancel_left,
      hplace, Comparison.ofPair]
    split <;> rfl
  rw [comparisons, ha, hb, hc, show 214 = 104 + 84 + 26 from rfl, List.range_add, List.range_add]
  simp only [List.map_append, List.map_map, Function.comp_def]

/-- The check finds the position of the first violated comparison (R71). -/
theorem firstViolation_eq_some {t : Table} {position : Nat} : firstViolation t = some position ↔
    ∃ i, i < 214 ∧ (orderPair t i).1 = position ∧ (orderPair t i).2.1 < (orderPair t i).2.2 ∧
      ∀ j, j < i → ¬(orderPair t j).2.1 < (orderPair t j).2.2 := by
  simp only [firstViolation, comparisons_eq, List.find?_map, Option.map_map, Option.map_eq_some_iff, List.find?_range_eq_some,
    Function.comp_apply, violated_ofPair, decide_eq_true_eq, List.mem_range]
  constructor
  · rintro ⟨i, ⟨hviolated, hi, hfirst⟩, hposition⟩
    exact ⟨i, hi, hposition, hviolated, by simpa using hfirst⟩
  · rintro ⟨i, hi, hposition, hviolated, hfirst⟩
    exact ⟨i, ⟨hviolated, hi, by simpa using hfirst⟩, hposition⟩

/-- The check finds nothing exactly in a table that satisfies the order conditions (R64, R71). -/
theorem firstViolation_eq_none {t : Table} : firstViolation t = none ↔ TableOrdered t := by
  simp only [firstViolation, Option.map_eq_none_iff, List.find?_eq_none, comparisons, comparisonsA, comparisonsB, comparisonsC,
    List.mem_append, List.mem_flatMap, List.mem_range, List.mem_cons, List.not_mem_nil, or_false, Comparison.violated,
    decide_eq_true_eq, Nat.not_lt]
  constructor
  · intro h
    refine ⟨fun b g hb hg => ⟨?_, ?_⟩, fun b g hb hg => ⟨?_, ?_⟩, fun b hb => ⟨?_, ?_⟩⟩
    · exact h _ (.inl (.inl ⟨g, by omega, b, by omega, .inl rfl⟩))
    · exact h _ (.inl (.inl ⟨g, by omega, b, by omega, .inr rfl⟩))
    · exact h _ (.inl (.inr ⟨b, by omega, g, by omega, .inl rfl⟩))
    · exact h _ (.inl (.inr ⟨b, by omega, g, by omega, .inr rfl⟩))
    · exact h _ (.inr ⟨b, by omega, .inl rfl⟩)
    · exact h _ (.inr ⟨b, by omega, .inr rfl⟩)
  · rintro ⟨hlean, hgrade, hradius⟩ c ((⟨g, hg, b, hb, rfl | rfl⟩ | ⟨b, hb, g, hg, rfl | rfl⟩) | ⟨b, hb, rfl | rfl⟩)
    · exact (hlean b g (by omega) (by omega)).1
    · exact (hlean b g (by omega) (by omega)).2
    · exact (hgrade b g (by omega) (by omega)).1
    · exact (hgrade b g (by omega) (by omega)).2
    · exact (hradius b (by omega)).1
    · exact (hradius b (by omega)).2

/-- A position is a point's number or 56 and a row's; number 55, of the last point, begins no comparison (R71). -/
theorem orderPair_position (t : Table) {i : Nat} (hi : i < 214) : (orderPair t i).1 ≤ 68 ∧ (orderPair t i).1 ≠ 55 := by
  unfold orderPair
  repeat' split
  all_goals
    dsimp only
    omega

/-! ### Interpolation down a falling column (R64, R65) -/

/-- Values that never rise from one breakpoint to the next never rise between any two. -/
theorem le_of_falling {p : Nat → Nat} {n : Nat} (h : ∀ b, b < n → p (b + 1) ≤ p b) {i j : Nat} (hij : i ≤ j) (hj : j ≤ n) :
    p j ≤ p i := by
  induction j, hij using Nat.le_induction with
  | base => exact le_rfl
  | succ j _ ih => exact (h j hj).trans (ih (by omega))

/-- A weighted sum of two values by their difference. -/
theorem weighted_sum_add (b d : Nat) {w : Nat} (hw : w ≤ 500) : (b + d) * (500 - w) + b * w + d * w = 500 * (b + d) := by
  rw [Nat.add_assoc, ← Nat.add_mul, ← Nat.mul_add, Nat.sub_add_cancel hw, Nat.mul_comm]

/-- Between two breakpoints of a falling column the value is the weighted mean of theirs, rounded up. -/
theorem interpolate_falling {p : Nat → Nat} {m : Nat} (hm : m < 6500) (h : p (m / 500 + 1) ≤ p (m / 500)) :
    interpolate p m = (p (m / 500) * (500 - m % 500) + p (m / 500 + 1) * (m % 500) + 499) / 500 := by
  obtain ⟨d, hd⟩ := Nat.exists_eq_add_of_le h
  have hw : m % 500 ≤ 500 := by omega
  have hfall : (p (m / 500 + 1) : Int) - p (m / 500) = -(d : Int) := by omega
  have hdrop : ((-(d : Int)) * (m % 500 : Nat)).tdiv 500 = -((d * (m % 500) / 500 : Nat) : Int) := by
    rw [neg_mul, Int.neg_tdiv]
    rfl
  have hsum := weighted_sum_add (p (m / 500 + 1)) d hw
  rw [interpolate_of_lt p hm, hfall, hdrop, hd]
  omega

/-- A falling column's interpolated value never rises with the magnitude. -/
theorem interpolate_antitone {p : Nat → Nat} (h : ∀ b, b < 13 → p (b + 1) ≤ p b) {m m' : Nat} (hm : m ≤ m') (hm' : m' ≤ 6500) :
    interpolate p m' ≤ interpolate p m := by
  obtain rfl | hlt := Nat.eq_or_lt_of_le hm
  · exact le_rfl
  have hlow : p (m / 500 + 1) ≤ interpolate p m := by
    have := h (m / 500) (by omega)
    have := (interpolate_line p (m := m) (by omega)).2.1
    omega
  obtain hsame | hnext := Nat.eq_or_lt_of_le (Nat.div_le_div_right (c := 500) hm)
  · have hfall := h (m / 500) (by omega)
    obtain ⟨d, hd⟩ := Nat.exists_eq_add_of_le hfall
    rw [interpolate_falling (by omega) hfall, interpolate_falling (m := m') (by omega) (by rwa [← hsame]), ← hsame]
    refine Nat.div_le_div_right (Nat.add_le_add_right ?_ 499)
    have hsum := weighted_sum_add (p (m / 500 + 1)) d (w := m % 500) (by omega)
    have hsum' := weighted_sum_add (p (m / 500 + 1)) d (w := m' % 500) (by omega)
    have hdrop := Nat.mul_le_mul_left d (show m % 500 ≤ m' % 500 by omega)
    rw [hd]
    omega
  · have hhigh : interpolate p m' ≤ p (m' / 500) := by
      obtain rfl | hcap := Nat.eq_or_lt_of_le hm'
      · exact (interpolate_cap p).le
      · have := h (m' / 500) (by omega)
        have := (interpolate_line p hcap).2.2
        omega
    exact hhigh.trans ((le_of_falling h hnext (by omega)).trans hlow)

/-- Of two falling columns the lower one's interpolated value is the lower. -/
theorem interpolate_le_interpolate {p q : Nat → Nat} (hp : ∀ b, b < 13 → p (b + 1) ≤ p b) (hq : ∀ b, b < 13 → q (b + 1) ≤ q b)
    (h : ∀ b, b ≤ 13 → q b ≤ p b) {m : Nat} (hm : m ≤ 6500) : interpolate q m ≤ interpolate p m := by
  obtain rfl | hlt := Nat.eq_or_lt_of_le hm
  · exact h 13 le_rfl
  · rw [interpolate_falling hlt (hp _ (by omega)), interpolate_falling hlt (hq _ (by omega))]
    gcongr
    · exact h _ (by omega)
    · exact h _ (by omega)

/-! ### The order conditions through every step -/

theorem TableMove.ordered {s : State} {t : Table} (h : TableMove s t) (hs : TableOrdered s.table) : TableOrdered t := by
  cases h with
  | kept => exact hs
  | reset => exact defaultTable_ordered
  | loaded p hnone => exact firstViolation_eq_none.mp hnone

/-- A field of the points that never rises along lean nor along grade: its interpolated value never rises with the magnitude at one
grade, nor with the grade at one magnitude (R64). -/
theorem interpolated_field_falls {t : Table} (f : EnvelopePoint → Nat)
    (hlean : ∀ b g, b ≤ 12 → g ≤ 3 → f (t.point (b + 1) g) ≤ f (t.point b g))
    (hgrade : ∀ b g, b ≤ 13 → g ≤ 2 → f (t.point b (g + 1)) ≤ f (t.point b g)) :
    (∀ g m m', g ≤ 3 → m ≤ m' → m' ≤ 6500 →
      interpolate (fun b => f (t.point b g)) m' ≤ interpolate (fun b => f (t.point b g)) m) ∧
    ∀ g g' m, g ≤ g' → g' ≤ 3 → m ≤ 6500 →
      interpolate (fun b => f (t.point b g')) m ≤ interpolate (fun b => f (t.point b g)) m := by
  have column {g : Nat} (hg : g ≤ 3) (b : Nat) (hb : b < 13) : f (t.point (b + 1) g) ≤ f (t.point b g) :=
    hlean b g (by omega) hg
  refine ⟨fun g m m' hg => interpolate_antitone (column hg), fun g g' m hg hg' =>
    interpolate_le_interpolate (column (hg.trans hg')) (column hg') fun b hb => ?_⟩
  exact le_of_falling (p := fun g => f (t.point b g)) (fun k hk => hgrade b k hb (by omega)) hg hg'

/-- Settles O52: a step keeps the order as a load installs only what its check lets pass; both ceilings are fields that never rise. -/
theorem tableOrderLaw : Obligations.TableOrderLaw := by
  have torque {t : Table} (ht : TableOrdered t) := interpolated_field_falls (·.torqueCeiling)
    (fun b g hb hg => (ht.1 b g hb hg).1) (fun b g hb hg => (ht.2.1 b g hb hg).1)
  have brake {t : Table} (ht : TableOrdered t) := interpolated_field_falls (·.brakeCeiling)
    (fun b g hb hg => (ht.1 b g hb hg).2) (fun b g hb hg => (ht.2.1 b g hb hg).2)
  refine ⟨defaultTable_ordered, fun s t hs hstep => ?_,
    fun t g m m' ht hg hm hm' => ⟨(torque ht).1 g m m' hg hm hm', (brake ht).1 g m m' hg hm hm'⟩,
    fun t g g' m ht hg hg' hm => ⟨(torque ht).2 g g' m hg hg' hm, (brake ht).2 g g' m hg hg' hm⟩⟩
  obtain rfl | ⟨c, rest, -, hexec⟩ := step_cases hstep
  · exact hs
  · exact (exec_tableMove hexec).ordered hs

end Sys2Proof.Machine
end

section
/-! PROOF. The requests of the Table Store: TABLE_LOAD's checks, its candidate and its clamped fields; TABLE_DUMP's image. -/

namespace Sys2Proof.Machine

open Sys2Proof.Safety

/-! ### The image's fields, clamped (R69, R186) -/

theorem clampNat_eq_within {lo hi : Nat} (v : Nat) (h : lo ≤ hi) : clampNat lo hi v = within lo hi v := by
  simp only [clampNat, within]
  repeat' split
  all_goals omega

theorem within_zero (hi v : Nat) : within 0 hi v = min hi v := Nat.zero_max _

theorem pointAt_eq (b g : Nat) : pointAt b g = 0x300 + 16 * (4 * b + g) := rfl

theorem rowAt_eq (b : Nat) : rowAt b = 0x680 + 4 * b := rfl

/-- An image point as written and as clamped, by the bytes of R186. -/
theorem imagePoint_fields (m : Memory) (b g : Nat) : imagePointFields m b g =
    [((imagePoint m b g).slipTarget, (imagePoint m b g).clamped.slipTarget),
      ((imagePoint m b g).torqueCeiling, (imagePoint m b g).clamped.torqueCeiling),
      ((imagePoint m b g).brakeCeiling, (imagePoint m b g).clamped.brakeCeiling),
      ((imagePoint m b g).frontShare, (imagePoint m b g).clamped.frontShare),
      ((imagePoint m b g).trailerShare, (imagePoint m b g).clamped.trailerShare)] := by
  simp (disch := decide) only [imagePointFields, EnvelopePoint.clamped, imagePoint, clampNat_eq_within, within_zero, pointAt_eq,
    Nat.add_right_comm _ (16 * _), Nat.reduceAdd]

theorem imageRow_fields (m : Memory) (b : Nat) : imageRowFields m b =
    [((imageRow m b).front, (imageRow m b).clamped.front), ((imageRow m b).rear, (imageRow m b).clamped.rear)] := by
  simp (disch := decide) only [imageRowFields, RadiusRow.clamped, imageRow, clampNat_eq_within, rowAt_eq,
    Nat.add_right_comm _ (4 * _), Nat.reduceAdd]

theorem imagePoint_clamped (m : Memory) (b g : Nat) : (imagePoint m b g).clamped =
    ⟨within 10 400 (m.u16At (0x300 + 16 * (4 * b + g))), min 1024 (m.u16At (0x302 + 16 * (4 * b + g))),
      within 500 12000 (m.u16At (0x304 + 16 * (4 * b + g))), within 64 230 (m.u16At (0x306 + 16 * (4 * b + g))),
      min 128 (m.u16At (0x308 + 16 * (4 * b + g)))⟩ := by
  have h := imagePoint_fields m b g
  simp only [imagePointFields, List.cons.injEq, Prod.mk.injEq, and_true] at h
  obtain ⟨⟨-, hslip⟩, ⟨-, htorque⟩, ⟨-, hbrake⟩, ⟨-, hfront⟩, -, htrailer⟩ := h
  rw [hslip, htorque, hbrake, hfront, htrailer]

theorem imageRow_clamped (m : Memory) (b : Nat) : (imageRow m b).clamped =
    ⟨within 29491 32768 (m.u16At (0x680 + 4 * b)), within 29491 32768 (m.u16At (0x682 + 4 * b))⟩ := by
  have h := imageRow_fields m b
  simp only [imageRowFields, List.cons.injEq, Prod.mk.injEq, and_true] at h
  obtain ⟨⟨-, hfront⟩, -, hrear⟩ := h
  rw [hfront, hrear]

theorem clampedFields_cons (f : Nat × Nat) (fs : List (Nat × Nat)) :
    clampedFields (f :: fs) = changed f.1 f.2 + clampedFields fs := by
  simp only [clampedFields, List.countP_cons, changed, bne_iff_ne, ne_eq, ite_not, Nat.add_comm]

theorem clampedFields_nil : clampedFields [] = 0 := rfl

theorem clampCount_point (m : Memory) (b g : Nat) : (imagePoint m b g).clampCount = clampedFields (imagePointFields m b g) := by
  simp only [imagePoint_fields, clampedFields_cons, clampedFields_nil, EnvelopePoint.clampCount, Nat.add_assoc, Nat.add_zero]

theorem clampCount_row (m : Memory) (b : Nat) : (imageRow m b).clampCount = clampedFields (imageRowFields m b) := by
  simp only [imageRow_fields, clampedFields_cons, clampedFields_nil, RadiusRow.clampCount, Nat.add_zero]

theorem LoadRange.namesPoint_iff (p : LoadRange) (b g : Nat) :
    p.namesPoint b g = true ↔ p.first ≤ b ∧ b ≤ p.last ∧ p.mask.getLsbD g = true := by
  simp [LoadRange.namesPoint, and_assoc]

theorem LoadRange.namesRow_iff (p : LoadRange) (b : Nat) :
    p.namesRow b = true ↔ p.radius = true ∧ p.first ≤ b ∧ b ≤ p.last := by
  simp [LoadRange.namesRow, and_assoc]

theorem clampedFields_append (fs gs : List (Nat × Nat)) : clampedFields (fs ++ gs) = clampedFields fs + clampedFields gs :=
  List.countP_append

theorem clampedFields_flatMap (l : List Nat) (f : Nat → List (Nat × Nat)) :
    clampedFields (l.flatMap f) = (l.map fun a => clampedFields (f a)).sum :=
  List.countP_flatMap

theorem clampedFields_ite (c : Prop) [Decidable c] (fs : List (Nat × Nat)) :
    clampedFields (if c then fs else []) = if c then clampedFields fs else 0 := by
  rw [apply_ite clampedFields, clampedFields_nil]

/-- The clamped fields of a load are those of the named points and rows, in the image's order (R69). -/
theorem loadClamps_eq (m : Memory) (p : LoadRange) : loadClamps m p = clampedFields
    (((List.range 14).flatMap fun b => (List.range 4).flatMap fun g =>
        if p.namesPoint b g then imagePointFields m b g else [])
      ++ (List.range 14).flatMap fun b => if p.namesRow b then imageRowFields m b else []) := by
  have hpoints := flatMap_range_map 14 4 fun b g => if p.namesPoint b g then (imagePoint m b g).clampCount else 0
  rw [loadClamps, ← hpoints, List.flatMap_def, List.sum_flatten, List.map_map]
  simp only [clampedFields_append, clampedFields_flatMap, clampedFields_ite, clampCount_point, clampCount_row, Function.comp_def]

/-! ### TABLE_LOAD (R67, R72) -/

/-- A load applied is refused with the first violation or installs its candidate, as Safety.lean states it. -/
theorem applyLoad_applied {r : Request} {s : State} (hm : s.ram.wf = true) (hslot : r.slot < 16) :
    LoadApplied r s (applyLoad r s) := by
  rintro first last rfl rfl
  have hradius : (loadRange r).radius = true ↔ byteOf r.param2 2 ≠ 0 := bne_iff_ne
  refine ⟨candidate s.ram s.table (loadRange r), fun b g hb hg => ?_, fun b hb => ?_, ?_⟩
  · simp only [candidate_point _ _ _ hb hg, imagePoint_clamped, LoadRange.namesPoint_iff]
    rfl
  · simp only [candidate_row _ _ _ hb, imageRow_clamped, LoadRange.namesRow_iff, hradius]
    rfl
  · cases h : firstViolation (candidate s.ram s.table (loadRange r)) with
    | some position =>
      simp only [applyLoad, h]
      exact finish_completes _ _ hm hslot (Nat.zero_le _)
    | none =>
      rintro n hn
      have hn : n = loadClamps s.ram (loadRange r) := by
        rw [hn, loadClamps_eq]
        simp only [LoadRange.namesPoint_iff, LoadRange.namesRow_iff, hradius]
        rfl
      simp only [applyLoad, h, hn]
      exact finish_completes _ _ hm hslot (Nat.zero_le _)

/-- The four checks in their order, by the parameters' bytes (R67, R187). -/
theorem loadCheck_eq (r : Request) : loadCheck (loadRange r) =
    if 15 < r.param1.toNat then some 1
    else if (byteOf r.param2 1).toNat < (byteOf r.param2 0).toNat then some 2
    else if 13 < (byteOf r.param2 1).toNat then some 3
    else if r.param1.toNat = 0 ∧ (byteOf r.param2 2 != 0) = false then some 4
    else none := by
  simp only [loadCheck, loadRange, BitVec.toNat_eq]
  rfl

theorem exec_tableLoad {s : State} {r : Request} (htaken : s.rqe.execution = some ⟨r, .taken⟩) (hkind : r.kind = 2) :
    exec .tableLoad s = .next (executeLoad r s) :=
  congrArg Host.Outcome.next (withTaken_runs (run := executeLoad) htaken (beq_iff_eq.mpr hkind))

theorem executeLoad_refused {s : State} {r : Request} {detail : Nat} (hm : s.ram.wf = true) (hslot : r.slot < 16)
    (h : loadCheck (loadRange r) = some detail) : Completes r .refusedRange detail [] s (executeLoad r s) := by
  rw [executeLoad, h]
  exact finish_completes _ _ hm hslot (Nat.zero_le _)

theorem executeLoad_passed {s : State} {r : Request} (h : loadCheck (loadRange r) = none) :
    executeLoad r s = gapRequest applyLoad r s := by
  rw [executeLoad, h]

/-- Settles O32: the four checks in their order, the application by `applyLoad_applied`, and the order check by what it finds. -/
theorem tableLoad : Obligations.TableLoad := by
  refine ⟨?_, fun t => firstViolation_eq_none, fun t position => firstViolation_eq_some, fun t position h => ?_⟩
  · rintro s r mask first last radius htaken hm hslot hkind rfl rfl rfl rfl
    refine ⟨_, exec_tableLoad htaken hkind, ?_⟩
    have hcheck := loadCheck_eq r
    split_ifs at hcheck ⊢ with hmask horder hlast hnothing hbusy
    · exact executeLoad_refused hm hslot hcheck
    · exact executeLoad_refused hm hslot hcheck
    · exact executeLoad_refused hm hslot hcheck
    · exact executeLoad_refused hm hslot hcheck
    · rw [executeLoad_passed hcheck, gapRequest, if_neg (by simp [Option.isSome_iff_ne_none.mp hbusy])]
      rfl
    · rw [executeLoad_passed hcheck, gapRequest, if_pos (by simpa using hbusy)]
      exact applyLoad_applied hm hslot
  · obtain ⟨i, hi, rfl, -⟩ := firstViolation_eq_some.mp h
    exact orderPair_position t hi

/-! ### TABLE_DUMP (R75, R76) -/

theorem imageSpan_length (t : Table) (low high : Nat) : (imageSpan t low high).length = high - low := by simp [imageSpan]

theorem exec_tableDump {s : State} {r : Request} (htaken : s.rqe.execution = some ⟨r, .taken⟩) (hkind : r.kind = 3) :
    exec .tableDump s = .next (gapRequest beginDump r s) :=
  congrArg Host.Outcome.next (withTaken_runs (run := gapRequest beginDump) htaken (beq_iff_eq.mpr hkind))

theorem exec_tableDumpDone_writing {s : State} {r : Request} {w : Nat} (h : s.rqe.execution = some ⟨r, .dumping w⟩) :
    exec .tableDumpDone s = .next (finish r .ok 0 [] { s with ram := dumpSpan s.ram s.table w imageWords }) := by
  simp only [exec, execTableDumpDone, dumpingRequest, h]

theorem exec_tableDumpDone_idle {s : State} (h : ∀ r w, s.rqe.execution ≠ some ⟨r, .dumping w⟩) :
    exec .tableDumpDone s = .next s := by
  have hnone : dumpingRequest s = none := by
    unfold dumpingRequest
    split
    · next r w hx => exact absurd hx (h r w)
    · rfl
  simp only [exec, execTableDumpDone, hnone]

/-- The words `low` to `high - 1` of the image are stored as a stretch (R75). -/
theorem dumpSpan_stored {m : Memory} (t : Table) {low high : Nat} (hm : m.wf = true) (hhigh : high ≤ 256) (hlow : low ≤ high) :
    Stored m (dumpSpan m t low high) (imageWord + low) (imageSpan t low high) := by
  refine Memory.writeWords_stored _ _ hm ?_
  rw [imageSpan_length]
  unfold imageWord Config.ramWords
  omega

/-- An image word within a point, by its place there: four words a point, the last without a field (R186). -/
theorem imageOf_point (t : Table) {i : Nat} (hi : i < 224) : imageOf t i =
    if i % 4 = 0 then pack16 (u16 (t.point (i / 16) (i / 4 % 4)).slipTarget) (u16 (t.point (i / 16) (i / 4 % 4)).torqueCeiling)
    else if i % 4 = 1 then pack16 (u16 (t.point (i / 16) (i / 4 % 4)).brakeCeiling) (u16 (t.point (i / 16) (i / 4 % 4)).frontShare)
    else if i % 4 = 2 then pack16 (u16 (t.point (i / 16) (i / 4 % 4)).trailerShare) 0
    else 0 := by
  rw [imageOf, if_pos hi]
  dsimp only
  split
  · next h => rw [if_pos h]
  · next h => rw [if_neg (by omega), if_pos h]
  · next h => rw [if_neg (by omega), if_neg (by omega), if_pos h]
  · next h0 h1 h2 => rw [if_neg h0, if_neg h1, if_neg h2]

/-- Settles O33: the rest of the image is stored as one stretch of words, and the completion is `finish_completes`. -/
theorem tableDump : Obligations.TableDump := by
  refine ⟨fun s r htaken hkind => ?_, fun s r w hdumping hw hm hslot => ?_, fun s => exec_tableDumpDone_idle, fun t i _ => ?_⟩
  · rw [exec_tableDump htaken hkind, gapRequest]
    cases s.fcu.inFlight <;> rfl
  · have hstored := dumpSpan_stored s.table hm (Nat.le_refl 256) hw
    exact ⟨_, _, exec_tableDumpDone_writing hdumping, hstored, finish_completes _ _ hstored.1 hslot (Nat.zero_le _)⟩
  · split
    · next hi => exact imageOf_point t hi
    · next hi => rw [imageOf, if_neg hi]

end Sys2Proof.Machine
end

section
/-! PROOF. The soft reset: the slots it completes, the areas it rewrites, and the dump or frame record it cuts off (R172, R78, R179). -/

namespace Sys2Proof.Machine

open Sys2Proof.Safety

/-! ### What an unchanged slot gives -/

/-- A word whose four bytes are kept is kept. -/
theorem Memory.readWord_congr {m m' : Memory} {i : Nat} (h : ∀ a, a / 4 = i → m'.readByte a = m.readByte a) :
    m'.readWord i = m.readWord i := by
  unfold Memory.readWord
  rw [h (4 * i) (by omega), h (4 * i + 1) (by omega), h (4 * i + 2) (by omega), h (4 * i + 3) (by omega)]

theorem slotMark_congr {m m' : Memory} {k : Nat} (h : ∀ a, a / 4 = slotWord k → m'.readByte a = m.readByte a) :
    slotMark m' k = slotMark m k := by
  rw [slotMark, slotMark, Memory.readWord_congr h]

/-- Of the Exchange RAM, kind and tag as taken depend on the slot's first word alone. -/
theorem takenWith_congr {m m' : Memory} {e : RequestEngine} {k : Nat} {kind : Byte} {tag : Half}
    (h : ∀ a, a / 4 = slotWord k → m'.readByte a = m.readByte a) (ht : TakenWith m' e k kind tag) : TakenWith m e k kind tag := by
  have hbyte (j : Nat) (hj : j < 4) : m'.readByte (0x700 + 128 * k + j) = m.readByte (0x700 + 128 * k + j) := by
    refine h _ ?_
    unfold slotWord
    omega
  unfold TakenWith at ht ⊢
  rwa [hbyte 1 (by decide), hbyte 2 (by decide), hbyte 3 (by decide)] at ht

/-- Kind and tag as taken do not depend on how far the request in execution has come. -/
theorem takenWith_phase {m : Memory} {e : RequestEngine} {r : Request} {p q : Phase} {k : Nat} {kind : Byte} {tag : Half}
    (he : e.execution = some ⟨r, p⟩) (ht : TakenWith m { e with execution := some ⟨r, q⟩ } k kind tag) :
    TakenWith m e k kind tag := by
  simpa [TakenWith, he] using ht

/-! ### The slots (R172) -/

/-- `m'` is `m` with its TAKEN slots of the first `n` DONE with RESET (R172). -/
def SlotsReset (e : RequestEngine) (n : Nat) (m m' : Memory) : Prop :=
  m'.wf = true ∧
    (∀ k, k < n → slotMark m k = markTaken →
      (∃ kind tag, TakenWith m e k kind tag ∧ m'.readWord (slotWord k) = firstWord markDone kind tag) ∧
        m'.readWord (slotWord k + 1) = 34) ∧
    ∀ a, (∀ k, k < n → slotMark m k = markTaken → a / 4 ≠ slotWord k ∧ a / 4 ≠ slotWord k + 1) → m'.readByte a = m.readByte a

/-- One more slot reset. -/
theorem SlotsReset.succ {e : RequestEngine} {n : Nat} {m m' : Memory} (h : SlotsReset e n m m') (hn : n < 16) :
    SlotsReset e (n + 1) m (resetSlot e m' n) := by
  obtain ⟨hwf, hwords, hkept⟩ := h
  have hslot (a : Nat) (ha : a / 4 = slotWord n) : m'.readByte a = m.readByte a := by
    refine hkept a fun k hk _ => ?_
    unfold slotWord at ha ⊢
    omega
  unfold resetSlot
  rw [slotMark_congr hslot]
  split
  · next hmark =>
    have hwritten := completedSlot_written (takenAs m' e n).1 (takenAs m' e n).2 .reset 0 (payload := []) hwf hn (Nat.zero_le _)
    generalize completedSlot m' n _ _ _ _ _ = t at hwritten ⊢
    obtain ⟨hwf', hfirst, hcode, -, hframe⟩ := hwritten
    have hframe (a : Nat) (h0 : a / 4 ≠ slotWord n) (h1 : a / 4 ≠ slotWord n + 1) : t.readByte a = m'.readByte a :=
      hframe a (by simp only [List.length_nil]; omega)
    have hbelow (i : Nat) (hi : i < slotWord n) : t.readWord i = m'.readWord i :=
      Memory.readWord_congr fun a ha => hframe a (by omega) (by omega)
    refine ⟨hwf', fun k hk hmark' => ?_, fun a ha => ?_⟩
    · obtain hlt | rfl := Nat.lt_succ_iff_lt_or_eq.mp hk
      · have hplace : slotWord k + 1 < slotWord n := by
          unfold slotWord
          omega
        rw [hbelow _ (by omega), hbelow _ hplace]
        exact hwords k hlt hmark'
      · exact ⟨⟨_, _, takenWith_congr hslot (takenAs_takenWith m' e hn), hfirst⟩, hcode⟩
    · obtain ⟨h0, h1⟩ := ha n n.lt_succ_self hmark
      rw [hframe a h0 h1]
      exact hkept a fun k hk => ha k (hk.trans n.lt_succ_self)
  · next hmark =>
    refine ⟨hwf, fun k hk hmark' => hwords k ?_ hmark', fun a ha => hkept a fun k hk => ha k (hk.trans n.lt_succ_self)⟩
    exact Nat.lt_of_le_of_ne (Nat.le_of_lt_succ hk) fun h => hmark (h ▸ hmark')

/-- The slots reset one after another, from slot 0 up. -/
theorem slotsReset_foldl {m : Memory} (e : RequestEngine) (hm : m.wf = true) :
    ∀ n, n ≤ 16 → SlotsReset e n m ((List.range n).foldl (resetSlot e) m)
  | 0, _ => ⟨hm, fun _ hk => absurd hk (Nat.not_lt_zero _), fun _ _ => rfl⟩
  | n + 1, hn => by
    rw [List.range_succ, List.foldl_append]
    exact (slotsReset_foldl e hm n (by omega)).succ hn

/-! ### The rewritten areas (R172, R182, R183) -/

/-- The Exchange RAM with identity block, live page and notice header rewritten (R172). -/
def resetAreas (m : Memory) : Memory :=
  ((m.writeWords 0 (identityBlock 2)).writeWords pageWord (List.replicate pageWords 0)).writeWords headerWord
    (List.replicate headerWords 0)

theorem softResetMemory_eq (m : Memory) (e : RequestEngine) :
    softResetMemory m e = (List.range 16).foldl (resetSlot e) (resetAreas m) := rfl

theorem resetAreas_wf {m : Memory} (hm : m.wf = true) : (resetAreas m).wf = true :=
  Memory.writeWords_wf _ _ (Memory.writeWords_wf _ _ (Memory.writeWords_wf _ _ hm))

theorem resetAreas_readByte (m : Memory) {a : Nat} (hlow : 64 ≤ a / 4) (hpage : ¬(128 ≤ a / 4 ∧ a / 4 < 192)) :
    (resetAreas m).readByte a = m.readByte a := by
  have hidentity : (identityBlock 2).length = 16 := rfl
  unfold resetAreas pageWord pageWords headerWord headerWords
  rw [Memory.readByte_writeWords_ne, Memory.readByte_writeWords_ne, Memory.readByte_writeWords_ne]
  all_goals
    simp only [List.length_replicate, hidentity]
    omega

theorem resetAreas_identity {m : Memory} (hm : m.wf = true) {i : Nat} (hi : i < 16) :
    (resetAreas m).readWord i = (identityBlock 2).getD i 0 := by
  have hword := Memory.readWord_writeWords_at (identityBlock 2) 0 i hm hi (by unfold Config.ramWords; omega)
  rw [Nat.zero_add] at hword
  unfold resetAreas
  rw [Memory.readWord_writeWords_ne _ _ _ _ (.inl (by unfold headerWord; omega)),
    Memory.readWord_writeWords_ne _ _ _ _ (.inl (by unfold pageWord; omega)), hword]

/-- A stretch of zeros reads as zero. -/
theorem Memory.readWord_writeWords_zeros {m : Memory} (hm : m.wf = true) {i n j : Nat} (hlow : i ≤ j) (hhigh : j < i + n)
    (hn : i + n ≤ Config.ramWords) : (m.writeWords i (List.replicate n 0)).readWord j = 0 := by
  obtain ⟨k, rfl⟩ := Nat.exists_eq_add_of_le hlow
  have hk : k < n := by omega
  rw [Memory.readWord_writeWords_at _ i k hm (by simpa using hk) (by omega)]
  simp [hk]

theorem resetAreas_header {m : Memory} (hm : m.wf = true) {i : Nat} (hlow : 16 ≤ i) (hhigh : i < 64) :
    (resetAreas m).readWord i = 0 :=
  Memory.readWord_writeWords_zeros (Memory.writeWords_wf _ _ (Memory.writeWords_wf _ _ hm)) hlow hhigh (by decide)

theorem resetAreas_page {m : Memory} (hm : m.wf = true) {i : Nat} (hlow : 128 ≤ i) (hhigh : i < 192) :
    (resetAreas m).readWord i = 0 := by
  have hheader : headerWord + (List.replicate headerWords (0 : Word)).length ≤ i := by
    rw [List.length_replicate, headerWord, headerWords]
    omega
  rw [resetAreas, Memory.readWord_writeWords_ne _ _ _ _ (.inr hheader)]
  exact Memory.readWord_writeWords_zeros (Memory.writeWords_wf _ _ hm) hlow hhigh (by decide)

/-- A soft reset with nothing in writing leaves the Exchange RAM as R172 says. -/
theorem softResetMemory_resets {m : Memory} (e : RequestEngine) (hm : m.wf = true) :
    SoftResetRam m (softResetMemory m e) e fun _ => False := by
  obtain ⟨hwf, hslots, hkept⟩ := slotsReset_foldl e (resetAreas_wf hm) 16 le_rfl
  rw [← softResetMemory_eq] at hwf hslots hkept
  have hlow (i : Nat) (hi : i < 448) : (softResetMemory m e).readWord i = (resetAreas m).readWord i := by
    refine Memory.readWord_congr fun a ha => hkept a fun k hk _ => ?_
    unfold slotWord
    omega
  have hslot (k : Nat) (a : Nat) (ha : a / 4 = slotWord k) : (resetAreas m).readByte a = m.readByte a := by
    unfold slotWord at ha
    exact resetAreas_readByte m (by omega) (by omega)
  have hmark (k : Nat) : slotMark (resetAreas m) k = slotMark m k := slotMark_congr (hslot k)
  simp only [hmark] at hslots hkept
  refine ⟨hwf, ?_, ?_, ?_, fun i h3 hi => ?_, fun i h128 hi => ?_, fun k hk htaken => ?_, fun a ha hpage _ hother => ?_⟩
  · rw [hlow 0 (by decide), resetAreas_identity hm (by decide)]
    rfl
  · rw [hlow 1 (by decide), resetAreas_identity hm (by decide)]
    rfl
  · rw [hlow 2 (by decide), resetAreas_identity hm (by decide)]
    rfl
  · rw [hlow i (by omega)]
    by_cases hidentity : i < 16
    · rw [resetAreas_identity hm hidentity]
      interval_cases i <;> rfl
    · exact resetAreas_header hm (by omega) hi
  · rw [hlow i (by omega), resetAreas_page hm h128 hi]
  · obtain ⟨⟨kind, tag, hwith, hdone⟩, hreset⟩ := hslots k hk htaken
    exact ⟨⟨kind, tag, takenWith_congr (hslot k) hwith, hdone⟩, hreset⟩
  · rw [hkept a hother, resetAreas_readByte m ha hpage]

end Sys2Proof.Machine
end

section
/-! PROOF. What a soft reset cuts off: a dump in writing, a frame record in writing (R78, R179). -/

namespace Sys2Proof.Machine

open Sys2Proof.Safety

/-! ### The state of step 4, whatever stands in the Exchange RAM -/

@[simp] theorem changeState_sc (new : OpState) (reason : StateReason) (s : State) :
    (changeState new reason s).sc = s.sc.enter new := by
  simp only [changeState]
  split <;> simp

theorem failCalibration_sc (why : CalFailure) (target : OpState) (reason : StateReason) (s : State) :
    (failCalibration why target reason s).sc = s.sc.noCalibration.enter target := by
  simp [failCalibration]

theorem succeedCalibration_sc (avg : CalSums) (s : State) :
    (succeedCalibration avg s).sc = s.sc.noCalibration.enter (s.sc.thenTarget.getD .standby) := by
  simp [succeedCalibration]

/-- What a calibration frame makes of the State Controller depends on the State Controller alone. -/
theorem calibrationFrame_sc_congr (p : Snapshot) {s t : State} (h : s.sc = t.sc) :
    (calibrationFrame p s).sc = (calibrationFrame p t).sc := by
  simp only [calibrationFrame, apply_ite State.sc, failCalibration_sc, succeedCalibration_sc, h]

/-- What a report makes of the State Controller depends on the State Controller and the FCU alone. -/
theorem takeReport_sc_congr (c : Computation) (r : Results) {s t : State} (hsc : s.sc = t.sc) (hfcu : s.fcu = t.fcu) :
    (takeReport c r s).sc = (takeReport c r t).sc := by
  cases hop : t.sc.op <;> simp only [takeReport, recoverFromLimp, apply_ite State.sc, changeState_sc, hsc, hop, hfcu]
  split
  · exact calibrationFrame_sc_congr _ rfl
  · rfl

theorem unitNotices_fcu (c : Computation) (r : Results) (s : State) : (unitNotices c r s).fcu =
    { s.fcu with prevVerdicts := r.verdicts, prevActiveGrade := r.activeGrade } := by
  simp [unitNotices]

/-- The state after step 4 depends on the State Controller and the FCU alone. -/
theorem throughReport_sc_congr (c : Computation) (r : Results) {s t : State} (hsc : s.sc = t.sc) (hfcu : s.fcu = t.fcu) :
    (throughReport c r s).sc = (throughReport c r t).sc :=
  takeReport_sc_congr c r (by simp [hsc]) (by simp [unitNotices_fcu, hfcu])

/-! ### A dump in writing (R78) -/

/-- Word `i` lies in the image that a dump is writing. -/
def DumpCut (s : State) (i : Nat) : Prop :=
  ∃ r w, s.rqe.execution = some ⟨r, .dumping w⟩ ∧ imageWord ≤ i ∧ i < imageWord + 256

theorem advanceDump_writing {s : State} {r : Request} {w : Nat} (h : s.rqe.execution = some ⟨r, .dumping w⟩) :
    advanceDump s = { s with
      ram := dumpSpan s.ram s.table w (dumpReach w s.freeIndex)
      rqe := { s.rqe with execution := some ⟨r, .dumping (dumpReach w s.freeIndex)⟩ }
      freeIndex := s.freeIndex + 1 } := by
  rw [advanceDump, h]

/-- A state with no dump writing, or with one. -/
theorem dumping_cases (s : State) :
    (∀ r w, s.rqe.execution ≠ some ⟨r, .dumping w⟩) ∨ ∃ r w, s.rqe.execution = some ⟨r, .dumping w⟩ := by
  by_cases h : ∃ r w, s.rqe.execution = some ⟨r, .dumping w⟩
  · exact .inr h
  · exact .inl fun r w hx => h ⟨r, w, hx⟩

/-- The dump writes nothing outside the image. -/
theorem advanceDump_readByte {s : State} (hm : s.ram.wf = true) (hw : ∀ r w, s.rqe.execution = some ⟨r, .dumping w⟩ → w ≤ 255)
    {a : Nat} (ha : ¬DumpCut s (a / 4)) : (advanceDump s).ram.readByte a = s.ram.readByte a := by
  obtain hidle | ⟨r, w, hx⟩ := dumping_cases s
  · rw [advanceDump_idle hidle]
  · have hwritten := hw r w hx
    have hplace : ¬(imageWord ≤ a / 4 ∧ a / 4 < imageWord + 256) := fun h => ha ⟨r, w, hx, h⟩
    have hreach : w ≤ dumpReach w s.freeIndex ∧ dumpReach w s.freeIndex ≤ 256 := by
      unfold dumpReach
      omega
    obtain ⟨-, -, hkept⟩ := dumpSpan_stored s.table hm hreach.2 hreach.1
    rw [advanceDump_writing hx]
    refine hkept a ?_
    rw [imageSpan_length]
    omega

/-- The dump that went on is the same request's: kind and tag of every slot stand as taken. -/
theorem takenWith_advanceDump {m : Memory} {s : State} {k : Nat} {kind : Byte} {tag : Half}
    (h : TakenWith m (advanceDump s).rqe k kind tag) : TakenWith m s.rqe k kind tag := by
  obtain hidle | ⟨r, w, hx⟩ := dumping_cases s
  · rwa [advanceDump_idle hidle] at h
  · rw [advanceDump_writing hx] at h
    exact takenWith_phase hx h

/-! ### A frame record in writing (R179) -/

/-- Word `i` lies in the capture entry that a computation in flight is going to write. -/
def RecordCut (s : State) (i : Nat) : Prop :=
  ∃ k, s.fcu.inFlight.isSome = true ∧ s.fcu.capture = some k ∧ k.skipCurrent = false ∧ captureWord k.next ≤ i ∧
    i < captureWord k.next + 16

/-- The record that a cut completion was writing (R189). -/
def recordInWriting (c : Computation) (s : State) : List Word :=
  frameRecord c (compute c s.table) (throughReport c (compute c s.table) s).sc.op

theorem recordInWriting_length (c : Computation) (s : State) : (recordInWriting c s).length = 16 := rfl

theorem recordInWriting_advanceDump (c : Computation) (s : State) : recordInWriting c (advanceDump s) = recordInWriting c s := by
  obtain ⟨-, -, hfcu, htable, hsc, -⟩ := advanceDump_frame s
  rw [recordInWriting, recordInWriting, htable, throughReport_sc_congr c _ hsc hfcu]

theorem recordCut_advanceDump (s : State) (i : Nat) : RecordCut (advanceDump s) i ↔ RecordCut s i := by
  simp [RecordCut]

theorem cutCapture_writing {s : State} {c : Computation} {k : Capture} (hc : s.fcu.inFlight = some c)
    (hk : s.fcu.capture = some k) (hskip : k.skipCurrent = false) :
    (cutCapture s).ram =
      s.ram.writeWords (captureWord k.next) ((recordInWriting c s).take (min 15 (Config.captureCut s.freeIndex))) := by
  simp [cutCapture, hc, hk, hskip, recordInWriting]

theorem cutCapture_idle {s : State} (h : ∀ c k, s.fcu.inFlight = some c → s.fcu.capture = some k → k.skipCurrent = true) :
    cutCapture s = s := by
  unfold cutCapture
  split
  · next c k hc hk => rw [if_pos (h c k hc hk)]
  · rfl

/-- The record's first `n` words are written over its entry, the last of them never (R179). -/
theorem cutCapture_words {s : State} {c : Computation} {k : Capture} (hm : s.ram.wf = true) (hc : s.fcu.inFlight = some c)
    (hk : s.fcu.capture = some k) (hskip : k.skipCurrent = false) (hnext : k.next < 32) :
    ∃ n, n ≤ 15 ∧ ∀ i, i < 16 → (cutCapture s).ram.readWord (captureWord k.next + i) =
      if i < n then (recordInWriting c s).getD i 0 else s.ram.readWord (captureWord k.next + i) := by
  refine ⟨min 15 (Config.captureCut s.freeIndex), Nat.min_le_left _ _, fun i hi => ?_⟩
  rw [cutCapture_writing hc hk hskip]
  generalize hn : min 15 (Config.captureCut s.freeIndex) = n
  have hlength : ((recordInWriting c s).take n).length = n := by
    rw [List.length_take, recordInWriting_length]
    omega
  split
  · next hin =>
    rw [Memory.readWord_writeWords_at _ _ _ hm (by omega) (by unfold captureWord Config.ramWords; omega)]
    simp [List.getD, hin]
  · exact Memory.readWord_writeWords_ne _ _ _ _ (by omega)

/-- The record is written nowhere but in its entry. -/
theorem cutCapture_readByte {s : State} {a : Nat} (ha : ¬RecordCut s (a / 4)) :
    (cutCapture s).ram.readByte a = s.ram.readByte a := by
  by_cases h : ∀ c k, s.fcu.inFlight = some c → s.fcu.capture = some k → k.skipCurrent = true
  · rw [cutCapture_idle h]
  · push Not at h
    obtain ⟨c, k, hc, hk, hskip⟩ := h
    have hskip : k.skipCurrent = false := by simpa using hskip
    have hplace : ¬(captureWord k.next ≤ a / 4 ∧ a / 4 < captureWord k.next + 16) :=
      fun h => ha ⟨k, by simp [hc], hk, hskip, h⟩
    rw [cutCapture_writing hc hk hskip]
    refine Memory.readByte_writeWords_ne _ _ _ _ ?_
    rw [List.length_take, recordInWriting_length]
    omega

/-! ### The soft reset (R172) -/

theorem exec_softReset {v : Word} (hv : v.getLsbD 0 = true) (s : State) : exec (.softReset v) s = .next { State.reset with
    ram := softResetMemory (cutCapture (advanceDump s)).ram (advanceDump s).rqe
    freeIndex := (cutCapture (advanceDump s)).freeIndex
    pending := s.pending } := by
  simp [exec, execSoftReset, resetBit, hv, softReset, powerOn]

/-- A soft reset of a memory `b`, which is `m` but for the words of `cut`, is one of `m` but for them. -/
theorem softResetRam_ofCut {m b t : Memory} {e e' : RequestEngine} {cut : Nat → Prop} (h : SoftResetRam b t e' fun _ => False)
    (hkept : ∀ a, ¬cut (a / 4) → b.readByte a = m.readByte a) (hslots : ∀ k, k < 16 → ¬cut (slotWord k))
    (htaken : ∀ k kind tag, TakenWith m e' k kind tag → TakenWith m e k kind tag) : SoftResetRam m t e cut := by
  obtain ⟨hwf, h0, h1, h2, hlow, hpage, hreset, hrest⟩ := h
  have hslot (k : Nat) (hk : k < 16) (a : Nat) (ha : a / 4 = slotWord k) : b.readByte a = m.readByte a :=
    hkept a (ha ▸ hslots k hk)
  refine ⟨hwf, h0, h1, h2, hlow, hpage, fun k hk hmark => ?_, fun a ha hpage hcut hother => ?_⟩
  · obtain ⟨⟨kind, tag, hwith, hdone⟩, hcode⟩ := hreset k hk ((slotMark_congr (hslot k hk)).trans hmark)
    exact ⟨⟨kind, tag, htaken k kind tag (takenWith_congr (hslot k hk) hwith), hdone⟩, hcode⟩
  · rw [hrest a ha hpage not_false fun k hk hmark => hother k hk ((slotMark_congr (hslot k hk)).symm.trans hmark), hkept a hcut]

/-- The image and every word above the request board stand as a soft reset with nothing in writing found them. -/
theorem softResetRam_readWord_kept {b t : Memory} {e : RequestEngine} (h : SoftResetRam b t e fun _ => False) {i : Nat}
    (hlow : 192 ≤ i) (hboard : i < 448 ∨ 960 ≤ i) : t.readWord i = b.readWord i := by
  obtain ⟨-, -, -, -, -, -, -, hrest⟩ := h
  refine Memory.readWord_congr fun a ha => hrest a (by omega) (by omega) not_false fun k hk _ => ?_
  unfold slotWord
  omega

/-- Settles O5: the reset itself by `softResetMemory_resets`, over a memory in which the dump and the record have come as far as
`advanceDump_writes` and `cutCapture_words` say, and which is otherwise as it was. -/
theorem softResetCutsWriting : Obligations.SoftResetCutsWriting := by
  intro v s hv hm hwritten hnext
  obtain ⟨-, -, hfcu, -⟩ := advanceDump_frame s
  have hwf : (advanceDump s).ram.wf = true := wf_storable.advanceDump hm
  have hreset := softResetMemory_resets (advanceDump s).rqe (wf_storable.cutCapture hwf)
  have hdump {i : Nat} (h : DumpCut s i) : 192 ≤ i ∧ i < 448 := by
    obtain ⟨r, w, -, hlow, hhigh⟩ := h
    unfold imageWord at hlow hhigh
    omega
  have hrecord {i : Nat} (h : RecordCut s i) : 1216 ≤ i := by
    obtain ⟨k, -, -, -, hlow, -⟩ := h
    unfold captureWord at hlow
    omega
  have hcut {a : Nat} (h : ¬RecordCut s (a / 4)) :
      (cutCapture (advanceDump s)).ram.readByte a = (advanceDump s).ram.readByte a :=
    cutCapture_readByte ((recordCut_advanceDump s _).not.mpr h)
  refine ⟨_, _, exec_softReset hv s, softResetRam_ofCut hreset (fun a ha => ?_) (fun k hk => ?_) (fun k kind tag =>
    takenWith_advanceDump), fun r w hx => ?_, fun c k hc hk hskip => ?_⟩
  · obtain ⟨hd, hr⟩ := not_or.mp ha
    rw [hcut hr, advanceDump_readByte hm hwritten hd]
  · rintro (h | h)
    · have := hdump h
      unfold slotWord at this
      omega
    · have := hrecord h
      unfold slotWord at this
      omega
  · obtain ⟨m, n, hwn, hn, -, hwords, hadvance⟩ := advanceDump_writes hx hm (hwritten r w hx)
    refine ⟨n, hwn, hn, fun i hi => ?_⟩
    have hplace : 192 ≤ imageWord + i ∧ imageWord + i < 448 := by
      unfold imageWord
      omega
    rw [softResetRam_readWord_kept hreset hplace.1 (.inl hplace.2),
      Memory.readWord_congr fun a ha => hcut fun h => absurd (hrecord h) (by omega), hadvance, hwords]
    simp
  · obtain ⟨n, hn, hwords⟩ := cutCapture_words hwf (hfcu ▸ hc) (hfcu ▸ hk) hskip (hnext k hk)
    refine ⟨n, hn, fun i hi => ?_⟩
    have hplace : 1216 ≤ captureWord k.next + i := by
      unfold captureWord
      omega
    rw [softResetRam_readWord_kept hreset (by omega) (.inr (by omega)), hwords i hi, recordInWriting_advanceDump,
      Memory.readWord_congr fun a ha => advanceDump_readByte hm hwritten fun h => absurd (hdump h) (by omega)]
    rfl

end Sys2Proof.Machine
end

section
/-! PROOF. What one command can do to the State Controller and the calibration-valid flag: one inversion lemma,
`exec_controlStep`, from which the law of R115 and the mark of a stay in ACTIVE follow. -/

namespace Sys2Proof.Machine

open Sys2Proof.Safety

/-! ### The moves -/

/-- The State Controller with a calibration begun (R123). -/
def StateController.beginCalibration (c : StateController) (target : OpState) : StateController :=
  ({ c with prior := some c.op, thenTarget := some target } : StateController).noCalibration.enter .calibrating

theorem startCalibration_sc (target : OpState) (s : State) : (startCalibration target s).sc = s.sc.beginCalibration target := by
  rw [startCalibration, changeState_sc]
  rfl

/-- What a command other than the resets and the frame start can make of the State Controller `c`, with `v` the calibration-valid
flag before: the controller and the flag after. -/
inductive ControlMove (v : Bool) : StateController → StateController → Bool → Prop
  | kept (c) : ControlMove v c c v
  | entered (c) {new : OpState} : c.op ≠ .calibrating → new ≠ .calibrating → new ≠ .limp →
    (new = .dormant ∨ c.op ≠ .dormant ∨ v = true) → ControlMove v c (c.enter new) v
  | limped (c) : c.op = .active → ControlMove v c (c.enter .limp) v
  | calibrationStarted (c) {target : OpState} : (c.op = .dormant ∨ c.op = .standby ∨ c.op = .active) →
    (target = .standby ∨ target = .active) →
    ControlMove v c (c.beginCalibration target) v
  | accumulated (c) (imu : LaneView) : c.op = .calibrating → c.calCount + 1 < 256 → ControlMove v c (c.accumulate imu) v
  | calibrationFailed (c) {target : OpState} : c.op = .calibrating → (target = .dormant ∨ target = c.priorState) →
    ControlMove v c (c.noCalibration.enter target) v
  | calibrationSucceeded (c) : c.op = .calibrating →
    ControlMove v c (c.noCalibration.enter (c.thenTarget.getD .standby)) true
  | recovering (c) {n : Nat} : c.op = .limp → n ≤ 65535 → ControlMove v c { c with recovery := n } v
  | reported {c c' v'} (report : Option LimpReport) (motion : Option MotionData) :
    ControlMove v { c with lastReport := report, lastMotion := motion } c' v' → ControlMove v c c' v'

/-- The State Controller and the calibration-valid flag move as `ControlMove` says. -/
def MovesControl (s t : State) : Prop := ControlMove s.fcu.calValid s.sc t.sc t.fcu.calValid

theorem MovesControl.ofKept {s t : State} (hsc : t.sc = s.sc) (hv : t.fcu.calValid = s.fcu.calValid) : MovesControl s t := by
  rw [MovesControl, hsc, hv]
  exact .kept _

theorem MovesControl.refl (s : State) : MovesControl s s := .kept _

theorem MovesControl.ofFcu {s t : State} (hfcu : t.fcu = s.fcu)
    (h : ControlMove s.fcu.calValid s.sc t.sc s.fcu.calValid) : MovesControl s t := by
  rwa [MovesControl, hfcu]

/-- What follows a move and keeps the State Controller and the flag is part of it. -/
theorem MovesControl.congr {s t u : State} (h : MovesControl s t) (hsc : u.sc = t.sc) (hv : u.fcu.calValid = t.fcu.calValid) :
    MovesControl s u := by
  rwa [MovesControl, hsc, hv]

/-! ### What each operation makes of the calibration-valid flag -/

@[simp] theorem startCalibration_calValid (target : OpState) (s : State) :
    (startCalibration target s).fcu.calValid = s.fcu.calValid := by
  simp [startCalibration]

theorem succeedCalibration_calValid (avg : CalSums) (s : State) : (succeedCalibration avg s).fcu.calValid = true := by
  simp [succeedCalibration, FrameUnit.calibrated]

@[simp] theorem recordCapture_calValid (c : Computation) (r : Results) (s : State) :
    (recordCapture c r s).fcu.calValid = s.fcu.calValid := by
  simp only [recordCapture]
  repeat' split
  all_goals simp

@[simp] theorem requestCapture_calValid (r : Request) (s : State) : (requestCapture r s).fcu.calValid = s.fcu.calValid := by
  unfold requestCapture
  repeat' split
  all_goals simp

@[simp] theorem abandonRunningCapture_calValid (r : Request) (s : State) :
    (abandonRunningCapture r s).fcu.calValid = s.fcu.calValid := by
  unfold abandonRunningCapture
  split <;> simp

@[simp] theorem applyAdopt_calValid (r : Request) (s : State) : (applyAdopt r s).fcu.calValid = s.fcu.calValid := by
  simp [applyAdopt, adoptNamed_fcu]

@[simp] theorem clearNamed_calValid (mask : Word) (s : State) : (clearNamed mask s).fcu.calValid = s.fcu.calValid := by
  unfold clearNamed
  rw [ifNamed_keeps (·.fcu.calValid) (by simp), ifNamed_keeps (·.fcu.calValid) (by simp),
    ifNamed_keeps (·.fcu.calValid) (by simp), ifNamed_keeps (·.fcu.calValid) (act := clearStickyFlags) fun _ => rfl]

@[simp] theorem applyClear_calValid (r : Request) (s : State) : (applyClear r s).fcu.calValid = s.fcu.calValid := by
  simp [applyClear]

@[simp] theorem executeAdopt_calValid (r : Request) (s : State) : (executeAdopt r s).fcu.calValid = s.fcu.calValid := by
  unfold executeAdopt
  split
  · exact gapRequest_keeps (P := fun t => t.fcu.calValid = s.fcu.calValid) (applyAdopt_calValid r s) rfl
  · exact applyAdopt_calValid r s

@[simp] theorem executeClear_calValid (r : Request) (s : State) : (executeClear r s).fcu.calValid = s.fcu.calValid := by
  unfold executeClear
  split
  · exact gapRequest_keeps (P := fun t => t.fcu.calValid = s.fcu.calValid) (applyClear_calValid r s) rfl
  · exact applyClear_calValid r s

@[simp] theorem applyWaiting_calValid (r : Request) (s : State) : (applyWaiting r s).fcu.calValid = s.fcu.calValid := by
  unfold applyWaiting
  repeat' split
  all_goals simp

/-! ### MODE_GO and ABANDON -/

/-- A change of state by MODE_GO: to DORMANT, or with calibration valid to STANDBY or ACTIVE (R119, R121, R122). -/
theorem changeState_movesControl {new : OpState} {reason : StateReason} {s : State} (hop : s.sc.op ≠ .calibrating)
    (hcal : new ≠ .calibrating) (hlimp : new ≠ .limp) (hvalid : new = .dormant ∨ s.sc.op ≠ .dormant ∨ s.fcu.calValid = true) :
    MovesControl s (changeState new reason s) := by
  refine .ofFcu (by simp) ?_
  rw [changeState_sc]
  exact .entered _ hop hcal hlimp hvalid

theorem failCalibration_movesControl {why : CalFailure} {target : OpState} {reason : StateReason} {s : State}
    (hop : s.sc.op = .calibrating) (htarget : target = .dormant ∨ target = s.sc.priorState) :
    MovesControl s (failCalibration why target reason s) := by
  refine .ofFcu (by simp) ?_
  rw [failCalibration_sc]
  exact .calibrationFailed _ hop htarget

theorem finish_movesControl {r : Request} {code : ResultCode} {detail : Nat} {payload : List Word} {s t : State}
    (h : MovesControl s t) : MovesControl s (finish r code detail payload t) :=
  h.congr (by simp) (by simp)

theorem goDormant_movesControl (s : State) : MovesControl s (goDormant s) := by
  unfold goDormant
  cases hop : s.sc.op with
  | dormant => exact .refl s
  | calibrating => exact failCalibration_movesControl hop (.inl rfl)
  | standby | active | limp => exact changeState_movesControl (by simp [hop]) (by decide) (by decide) (.inl rfl)

theorem goStandby_movesControl (r : Request) (s : State) : MovesControl s (goStandby r s) := by
  unfold goStandby
  cases hop : s.sc.op with
  | dormant =>
    dsimp only
    split
    · next hvalid =>
      exact finish_movesControl (changeState_movesControl (by simp [hop]) (by decide) (by decide) (.inr (.inr hvalid)))
    · exact finish_movesControl (.refl s)
  | calibrating | standby => exact finish_movesControl (.refl s)
  | active | limp =>
    exact finish_movesControl (changeState_movesControl (by simp [hop]) (by decide) (by decide) (.inr (.inl (by simp [hop]))))

theorem goActive_movesControl (r : Request) (s : State) : MovesControl s (goActive r s) := by
  have enters (hop : s.sc.op ≠ .calibrating) (hvalid : s.sc.op ≠ .dormant ∨ s.fcu.calValid = true) :
      MovesControl s (finish r .ok 0 [] (changeState .active .modeGo (clearEscalation s))) :=
    finish_movesControl (changeState_movesControl (s := clearEscalation s) hop (by decide) (by decide) (.inr hvalid))
  unfold goActive
  cases hop : s.sc.op with
  | dormant =>
    dsimp only
    split
    · next hvalid => exact enters (by simp [hop]) (.inr hvalid)
    · exact finish_movesControl (.refl s)
  | calibrating => exact finish_movesControl (.refl s)
  | standby => exact enters (by simp [hop]) (.inl (by simp [hop]))
  | active => exact finish_movesControl (.ofKept rfl rfl)
  | limp =>
    dsimp only
    split
    · exact finish_movesControl (.refl s)
    · exact enters (by simp [hop]) (.inl (by simp [hop]))

theorem thenTargetOf_cases (r : Request) : thenTargetOf r = .standby ∨ thenTargetOf r = .active := by
  unfold thenTargetOf
  split <;> simp

theorem acceptCalibration_movesControl (r : Request) {s : State}
    (hop : s.sc.op = .dormant ∨ s.sc.op = .standby ∨ s.sc.op = .active) : MovesControl s (acceptCalibration r s) := by
  have started : MovesControl s (startCalibration (thenTargetOf r) s) := by
    rw [MovesControl, startCalibration_calValid, startCalibration_sc]
    exact .calibrationStarted _ hop (thenTargetOf_cases r)
  exact started.congr (by simp [acceptCalibration]) (by simp [acceptCalibration])

theorem goCalibrate_movesControl (r : Request) (s : State) : MovesControl s (goCalibrate r s) := by
  unfold goCalibrate
  split
  · exact finish_movesControl (.refl s)
  cases hop : s.sc.op with
  | dormant => exact acceptCalibration_movesControl r (by simp [hop])
  | calibrating | limp => exact finish_movesControl (.refl s)
  | standby | active =>
    dsimp only
    split
    · exact finish_movesControl (.refl s)
    · exact acceptCalibration_movesControl r (by simp [hop])

theorem abandonCalibration_movesControl (r : Request) (s : State) : MovesControl s (abandonCalibration r s) := by
  unfold abandonCalibration
  split
  · next hop => exact finish_movesControl (failCalibration_movesControl hop (.inr rfl))
  · exact finish_movesControl (.refl s)

/-! ### The report of a completion -/

/-- A calibration frame: the calibration fails, goes on with the frame accumulated, or succeeds (R124, R125). A frame accumulated
leaves the prior state and the then-target, so the 256th ends the calibration as if it had not been accumulated. -/
theorem calibrationFrame_movesControl (p : Snapshot) {s : State} (hop : s.sc.op = .calibrating) :
    MovesControl s (calibrationFrame p s) := by
  simp only [calibrationFrame]
  split
  · exact failCalibration_movesControl hop (.inr rfl)
  split
  · exact failCalibration_movesControl hop (.inr rfl)
  split
  · next hcount => exact .accumulated _ p.imu hop hcount
  split
  · refine .ofFcu (by simp) ?_
    rw [failCalibration_sc]
    exact .calibrationFailed s.sc hop (.inr rfl)
  · rw [MovesControl, succeedCalibration_sc, succeedCalibration_calValid]
    exact .calibrationSucceeded s.sc hop

theorem recoveryAfter_le (report : LimpReport) (n : Nat) : recoveryAfter report n ≤ 65535 := by
  unfold recoveryAfter
  split
  · exact Nat.min_le_left _ _
  · omega

/-- In LIMP the recovery count has no part in what an entry to another state leaves: it is set to 0 (R131). -/
theorem StateController.enter_of_limp {c : StateController} (hop : c.op = .limp) (n : Nat) (new : OpState) :
    ({ c with recovery := n } : StateController).enter new = c.enter new := by
  simp [StateController.enter, hop]

theorem recoverFromLimp_movesControl (report : LimpReport) {s : State} (hop : s.sc.op = .limp) :
    MovesControl s (recoverFromLimp report s) := by
  simp only [recoverFromLimp]
  split
  · refine .ofFcu (by simp) ?_
    rw [changeState_sc, StateController.enter_of_limp hop]
    exact .entered _ (by simp [hop]) (by decide) (by decide) (.inr (.inl (by simp [hop])))
  · exact .recovering _ hop (recoveryAfter_le report _)

/-- The report of a completion and its motion data kept, before the report is judged (R130). -/
def storeReport (c : Computation) (r : Results) (s : State) : State :=
  { s with sc := { s.sc with lastReport := some (limpReport c r), lastMotion := some (motionData c r) } }

theorem takeReport_eq (c : Computation) (r : Results) (s : State) : takeReport c r s =
    match s.sc.op with
    | .dormant | .standby => storeReport c r s
    | .calibrating => if c.calFrame then calibrationFrame c.snapshot (storeReport c r s) else storeReport c r s
    | .active =>
      if (limpReport c r).imuUnavailable || (limpReport c r).referenceUnavailable || (limpReport c r).escalation then
        changeState .limp .limpEntry (storeReport c r s)
      else storeReport c r s
    | .limp => recoverFromLimp (limpReport c r) (storeReport c r s) := by
  unfold takeReport storeReport
  cases s.sc.op <;> rfl

theorem takeReport_movesControl (c : Computation) (r : Results) (s : State) : MovesControl s (takeReport c r s) := by
  have judged : MovesControl (storeReport c r s) (takeReport c r s) := by
    rw [takeReport_eq]
    cases hop : s.sc.op with
    | dormant | standby => exact .refl _
    | calibrating =>
      dsimp only
      split
      · exact calibrationFrame_movesControl c.snapshot hop
      · exact .refl _
    | active =>
      dsimp only
      split
      · refine .ofFcu (by simp) ?_
        rw [changeState_sc]
        exact .limped _ hop
      · exact .refl _
    | limp => exact recoverFromLimp_movesControl _ hop
  exact .reported _ _ judged

theorem completeInFlight_movesControl (s : State) : MovesControl s (completeInFlight s) := by
  unfold completeInFlight
  split
  · next c _ =>
    have reported := takeReport_movesControl c (compute c s.table)
      (unitNotices c (compute c s.table) (makeDeposits c (compute c s.table) { s with fcu := s.fcu.step1 (compute c s.table) }))
    simp only [MovesControl, unitNotices_frame, unitNotices_fcu, makeDeposits_frame] at reported
    exact MovesControl.congr (t := throughReport c (compute c s.table) s) reported (by simp [completeComputation])
      (by simp [completeComputation, publish])
  · exact .refl s

/-! ### One command, one step -/

/-- What one command makes of the State Controller and the calibration-valid flag: a move, a reset, or the beginning of a
computation, which uses up the mark of a stay in ACTIVE (R88, R99, R126; notes/assumptions/22.md). -/
inductive ControlStep (i : Instr) (s t : State) : Prop
  | moved : MovesControl s t → ControlStep i s t
  | reset : (i = .powerOnReset ∨ ∃ v : Word, v.getLsbD 0 = true ∧ i = .softReset v) → t.sc = resetController →
    t.fcu.calValid = false → ControlStep i s t
  | begun : i = .frameStart → s.fcu.inFlight = none → t.fcu.inFlight = some (takeComputation s) →
    t.sc = { s.sc with activeEntered := false } → t.fcu.calValid = s.fcu.calValid → ControlStep i s t

theorem startFrame_controlStep (s : State) : ControlStep .frameStart s (startFrame s) := by
  unfold startFrame
  split
  · next hidle => exact .begun rfl (by simpa using hidle) rfl (by simp) (by simp [beginComputation])
  · exact .moved (.refl s)

theorem ControlStep.ofKept {i : Instr} {s t : State} (hsc : t.sc = s.sc) (hv : t.fcu.calValid = s.fcu.calValid) :
    ControlStep i s t := .moved (.ofKept hsc hv)

/-- A row that executes a taken request moves the State Controller as the execution does, or not at all. -/
theorem withTaken_controlStep {i : Instr} {belongs : Request → Bool} {run : Request → State → State} {s : State}
    (h : ∀ r, MovesControl s (run r s)) : ControlStep i s (withTaken belongs run s) :=
  .moved (withTaken_keeps (P := MovesControl s) (.refl s) h)

/-- Every command does to the State Controller and the calibration-valid flag what `ControlStep` says. -/
theorem exec_controlStep {i : Instr} {s t : State} (h : exec i s = .next t) : ControlStep i s t := by
  cases i <;> (injection h with h; subst h)
  case powerOnReset => exact .reset (.inl rfl) rfl rfl
  case softReset v =>
    split
    · next hbit => exact .reset (.inr ⟨v, hbit, rfl⟩) rfl rfl
    · exact .ofKept rfl rfl
  case frameStart => exact startFrame_controlStep s
  case computationComplete => exact .moved (completeInFlight_movesControl s)
  case modeGoDormant => exact withTaken_controlStep fun r => finish_movesControl (goDormant_movesControl s)
  case modeGoStandby => exact withTaken_controlStep fun r => goStandby_movesControl r s
  case modeGoActive => exact withTaken_controlStep fun r => goActive_movesControl r s
  case modeGoCalibrate => exact withTaken_controlStep fun r => goCalibrate_movesControl r s
  case abandonTransition => exact withTaken_controlStep fun r => abandonCalibration_movesControl r s
  case tableDump =>
    exact withTaken_controlStep fun r => gapRequest_keeps (P := MovesControl s) (.ofKept rfl rfl) (.ofKept rfl rfl)
  case refusedKind | refusedRange | adoptMode | adoptLoad | adoptLane | adoptLink | clearSticky | clearLane | clearChannelCounts
      | clearNoticeHeader | tableLoad | abandonCapture | channelStop | channelResume | channelRestart | capture =>
    exact withTaken_controlStep fun r => .ofKept (by simp) (by simp)
  case hostRamWrite | attentionArrival | linkGrant | summaryWrite | summaryEnableWrite | registerWriteIgnored =>
    exact .ofKept (by simp) (by simp)
  all_goals split <;> exact .ofKept (by simp) (by simp)

end Sys2Proof.Machine
end

section
/-! PROOF. The law of R115 and the mark of a stay in ACTIVE, through every step. -/

namespace Sys2Proof.Safety

open Sys2Proof.Machine

/-! ### The law of R115 -/

/-- A 16-bit sample moves a calibration sum by at most 32768. -/
theorem signed_natAbs_le (v : LaneView) (k : Nat) : (v.signed k).natAbs ≤ 32768 := by
  have hlow := BitVec.le_toInt (v.slot.getD k 0)
  have hhigh := BitVec.toInt_lt (x := v.slot.getD k 0)
  simp only [LaneView.signed, signed16]
  omega

/-- An entry leaves the recovery count at 0 where the law holds before it (R121, R130, R131). -/
theorem enter_recovery {c : StateController} {new : OpState} (h : c.op ≠ .limp → c.recovery = 0) : (c.enter new).recovery = 0 := by
  simp only [StateController.enter]
  split
  · rfl
  · next hnot => exact h fun hop => hnot (.inl hop)

/-- An entry to an operating state other than CALIBRATING, with no calibration's count and sums left, keeps the law where it goes to
DORMANT or calibration is valid. -/
theorem enter_consistent {c : StateController} {v : Bool} {new : OpState} (hrecovery : c.op ≠ .limp → c.recovery = 0)
    (hcal : c.calCount = 0 ∧ c.sums = zeroSums) (hnew : new = .dormant ∨ new ≠ .calibrating ∧ v = true) :
    ControlConsistent (c.enter new) v := by
  have hzero : (c.enter new).recovery = 0 := enter_recovery hrecovery
  refine ⟨by omega, fun _ => hzero, fun _ => hcal, ?_⟩
  obtain rfl | ⟨hnot, rfl⟩ := hnew
  · trivial
  · cases new with
    | dormant => trivial
    | calibrating => exact absurd rfl hnot
    | standby | active | limp => rfl

/-- Outside DORMANT and CALIBRATING calibration is valid (R115). -/
theorem ControlConsistent.valid {c : StateController} {v : Bool} (h : ControlConsistent c v) (hdormant : c.op ≠ .dormant)
    (hcal : c.op ≠ .calibrating) : v = true := by
  obtain ⟨-, -, -, hvalid⟩ := h
  cases hop : c.op with
  | dormant => exact absurd hop hdormant
  | calibrating => exact absurd hop hcal
  | standby | active | limp =>
    rw [hop] at hvalid
    exact hvalid

theorem priorState_of_prior {c : StateController} {op : OpState} (h : c.prior = some op) : c.priorState = op := by
  rw [StateController.priorState, h]
  rfl

/-- In CALIBRATING the prior state is DORMANT, or it is STANDBY or ACTIVE and calibration is valid (R123, R126). -/
theorem ControlConsistent.priorState {c : StateController} {v : Bool} (h : ControlConsistent c v) (hop : c.op = .calibrating) :
    c.priorState = .dormant ∨ (c.priorState = .standby ∨ c.priorState = .active) ∧ v = true := by
  obtain ⟨-, -, -, hcal⟩ := h
  rw [hop] at hcal
  obtain ⟨hprior, -⟩ := hcal
  exact hprior.imp priorState_of_prior (And.imp_left (Or.imp priorState_of_prior priorState_of_prior))

/-- In CALIBRATING the then-target is STANDBY or ACTIVE (R118, R123). -/
theorem ControlConsistent.thenTarget {c : StateController} {v : Bool} (h : ControlConsistent c v) (hop : c.op = .calibrating) :
    c.thenTarget.getD .standby = .standby ∨ c.thenTarget.getD .standby = .active := by
  obtain ⟨-, -, -, hcal⟩ := h
  rw [hop] at hcal
  obtain ⟨-, htarget | htarget, -⟩ := hcal <;> simp [htarget]

/-- A calibration that begins where the law holds keeps it: nothing is counted or gathered yet (R123). -/
theorem ControlConsistent.beginCalibration {c : StateController} {v : Bool} {target : OpState} (h : ControlConsistent c v)
    (hop : c.op = .dormant ∨ c.op = .standby ∨ c.op = .active) (htarget : target = .standby ∨ target = .active) :
    ControlConsistent (c.beginCalibration target) v := by
  have hprior : c.op = .dormant ∨ (c.op = .standby ∨ c.op = .active) ∧ v = true :=
    hop.imp_right fun hsa => ⟨hsa, h.valid (by obtain h | h := hsa <;> simp [h]) (by obtain h | h := hsa <;> simp [h])⟩
  obtain ⟨-, hrecovery, -, -⟩ := h
  have hzero : (c.beginCalibration target).recovery = 0 := enter_recovery hrecovery
  exact ⟨by omega, fun _ => hzero, fun hnot => absurd rfl hnot,
    hprior.imp (congrArg some) (And.imp_left (Or.imp (congrArg some) (congrArg some))),
    htarget.imp (congrArg some) (congrArg some), Nat.zero_lt_succ _, Nat.zero_le _, Nat.zero_le _, Nat.zero_le _, Nat.zero_le _⟩

/-- A calibration frame accumulated before the 256th keeps the sums within 32768 for each frame (R124). -/
theorem ControlConsistent.accumulate {c : StateController} {v : Bool} (h : ControlConsistent c v) (imu : LaneView)
    (hop : c.op = .calibrating) (hcount : c.calCount + 1 < 256) : ControlConsistent (c.accumulate imu) v := by
  obtain ⟨hmax, hrecovery, -, hcal⟩ := h
  have added {sum : Int} (k : Nat) (hsum : sum.natAbs ≤ 32768 * c.calCount) :
      (sum + imu.signed k).natAbs ≤ 32768 * (c.calCount + 1) := by
    have := signed_natAbs_le imu k
    omega
  rw [hop] at hcal
  obtain ⟨hprior, htarget, -, hroll, hyaw, hay, haz⟩ := hcal
  refine ⟨hmax, hrecovery, fun hnot => absurd hop hnot, ?_⟩
  simp only [StateController.accumulate, hop]
  exact ⟨hprior, htarget, hcount, added 0 hroll, added 1 hyaw, added 3 hay, added 4 haz⟩

end Sys2Proof.Safety

namespace Sys2Proof.Machine

open Sys2Proof.Safety

/-- Every move keeps the law of R115, and LIMP comes from LIMP or ACTIVE alone (R130). -/
theorem ControlMove.consistent {v v' : Bool} {c c' : StateController} (h : ControlMove v c c' v') :
    ControlConsistent c v → ControlConsistent c' v' ∧ (c'.op = .limp → c.op = .limp ∨ c.op = .active) := by
  induction h with
  | kept c => exact fun hc => ⟨hc, .inl⟩
  | entered c hop hnew hlimp hvalid =>
    intro hc
    have ⟨_, hrecovery, hcal, _⟩ := hc
    refine ⟨enter_consistent hrecovery (hcal hop) (hvalid.imp_right fun h => ⟨hnew, ?_⟩), fun h => absurd h hlimp⟩
    exact h.elim (fun hd => hc.valid hd hop) id
  | limped c hop =>
    intro hc
    have ⟨_, hrecovery, hcal, _⟩ := hc
    exact ⟨enter_consistent hrecovery (hcal (by simp [hop])) (.inr ⟨by decide, hc.valid (by simp [hop]) (by simp [hop])⟩),
      fun _ => .inr hop⟩
  | calibrationStarted c hop htarget => exact fun hc => ⟨hc.beginCalibration hop htarget, nofun⟩
  | accumulated c imu hop hcount => exact fun hc => ⟨hc.accumulate imu hop hcount, .inl⟩
  | @calibrationFailed c target hop htarget =>
    intro hc
    have ⟨_, hrecovery, _, _⟩ := hc
    have hnew : target = .dormant ∨ (target = .standby ∨ target = .active) ∧ v = true :=
      htarget.elim .inl fun h => h ▸ hc.priorState hop
    refine ⟨enter_consistent hrecovery ⟨rfl, rfl⟩ (hnew.imp_right fun h => ⟨?_, h.2⟩), fun (h : target = .limp) => ?_⟩
    · obtain ⟨rfl | rfl, -⟩ := h <;> decide
    · simp [h] at hnew
  | calibrationSucceeded c hop =>
    intro hc
    have ⟨_, hrecovery, _, _⟩ := hc
    have hnew := hc.thenTarget hop
    refine ⟨enter_consistent hrecovery ⟨rfl, rfl⟩ (.inr ⟨?_, rfl⟩), fun (h : c.thenTarget.getD .standby = .limp) => ?_⟩
    · obtain h | h := hnew <;> simp [h]
    · simp [h] at hnew
  | recovering c hop hn =>
    rintro ⟨-, -, hcal, hvalid⟩
    exact ⟨⟨hn, fun hnot => absurd hop hnot, hcal, hvalid⟩, fun _ => .inl hop⟩
  | reported report motion _ ih => exact ih

/-! ### The mark of a stay in ACTIVE (R88, R99, R126; notes/assumptions/22.md) -/

theorem StateController.enter_marked {c : StateController} {new : OpState} (h : new = .active) :
    (c.enter new).activeEntered = true := if_pos h

theorem StateController.enter_keepsMark {c : StateController} (new : OpState) (h : c.activeEntered = true) :
    (c.enter new).activeEntered = true := by
  simp [StateController.enter_marks, h]

/-- Every move into ACTIVE sets the mark. -/
theorem ControlMove.marks {v v' : Bool} {c c' : StateController} (h : ControlMove v c c' v') :
    c.op ≠ .active → c'.op = .active → c'.activeEntered = true := by
  induction h with
  | kept => exact fun hold hnew => absurd hnew hold
  | entered | calibrationFailed | calibrationSucceeded => exact fun _ hnew => StateController.enter_marked hnew
  | limped | calibrationStarted => exact fun _ => nofun
  | accumulated | recovering => exact fun hold hnew => absurd hnew hold
  | reported report motion _ ih => exact ih

/-- No move takes the mark away. -/
theorem ControlMove.keepsMark {v v' : Bool} {c c' : StateController} (h : ControlMove v c c' v') :
    c.activeEntered = true → c'.activeEntered = true := by
  induction h with
  | kept | accumulated | recovering => exact id
  | entered | limped | calibrationStarted | calibrationFailed | calibrationSucceeded =>
    exact StateController.enter_keepsMark _
  | reported report motion _ ih => exact ih

theorem resetController_consistent : ControlConsistent resetController false := resetIsSafe.control

/-- Every command keeps the law of R115, and LIMP is entered from ACTIVE alone. -/
theorem ControlStep.consistent {i : Instr} {s t : State} (h : ControlStep i s t) (hs : ControlConsistent s.sc s.fcu.calValid) :
    ControlConsistent t.sc t.fcu.calValid ∧ (t.sc.op = .limp → s.sc.op = .limp ∨ s.sc.op = .active) := by
  cases h with
  | moved hmove => exact hmove.consistent hs
  | reset _ hsc hv =>
    rw [hsc, hv]
    exact ⟨resetController_consistent, fun h => absurd h (by decide)⟩
  | begun _ _ _ hsc hv =>
    rw [hsc, hv]
    exact ⟨hs, .inl⟩

theorem ControlStep.marks {i : Instr} {s t : State} (h : ControlStep i s t) (hold : s.sc.op ≠ .active)
    (hnew : t.sc.op = .active) : t.sc.activeEntered = true := by
  cases h with
  | moved hmove => exact hmove.marks hold hnew
  | reset _ hsc _ => exact absurd (hsc ▸ hnew) (by decide)
  | begun _ _ _ hsc _ => exact absurd ((congrArg (·.op) hsc).symm.trans hnew) hold

/-- The mark stands until a reset or until the next computation begins, whose R_prev is 0 if it begins in ACTIVE. -/
theorem ControlStep.markStands {i : Instr} {s t : State} (h : ControlStep i s t) (hmark : s.sc.activeEntered = true) :
    t.sc.activeEntered = true ∨ i = .powerOnReset ∨ (∃ v : Word, v.getLsbD 0 = true ∧ i = .softReset v) ∨
      (i = .frameStart ∧ s.fcu.inFlight = none ∧
        ∃ c, t.fcu.inFlight = some c ∧ c.stateAtStart = s.sc.op ∧ (c.stateAtStart = .active → c.rPrev = 0)) := by
  cases h with
  | moved hmove => exact .inl (hmove.keepsMark hmark)
  | reset hcause => exact .inr (hcause.imp_right .inl)
  | begun hi hidle hc =>
    exact .inr (.inr (.inr ⟨hi, hidle, takeComputation s, hc, rfl, fun hop => previousReduction_first hop hmark⟩))

/-- Settles O54: one step idles or does to the State Controller what `ControlStep` says; a move keeps the law and the mark, a
reset ends both at their reset values, and the beginning of a computation uses the mark up for its R_prev. -/
theorem controlStaysConsistent : Obligations.ControlStaysConsistent := by
  intro s t hstep
  obtain rfl | ⟨i, rest, hq, hexec⟩ := step_cases hstep
  · exact ⟨fun hs => ⟨hs, .inl⟩, fun hold hnew => absurd hnew hold, .inl⟩
  · have h := exec_controlStep hexec
    refine ⟨h.consistent, h.marks, fun hmark => ?_⟩
    obtain hstands | rfl | ⟨v, hbit, rfl⟩ | ⟨rfl, hidle, hbegun⟩ := h.markStands hmark
    · exact .inl hstands
    · exact .inr (.inl ⟨rest, hq⟩)
    · exact .inr (.inr (.inl ⟨v, rest, hbit, hq⟩))
    · exact .inr (.inr (.inr ⟨⟨rest, hq⟩, hidle, hbegun⟩))

end Sys2Proof.Machine
end

section
/-! PROOF. Stages 6 and 7 of a computation: slip and regulator step, the ceilings C and D, the trailer level, and their bounds. -/

namespace Sys2Proof.Machine

open Sys2Proof.Safety

/-! ### The envelope in its ranges (R60, R65, R66) -/

/-- An interpolated value stays between bounds of the breakpoint values. -/
theorem interpolate_between {p : Nat → Nat} {lo hi : Nat} (h : ∀ b ≤ 13, lo ≤ p b ∧ p b ≤ hi) (m : Nat) :
    lo ≤ interpolate p m ∧ interpolate p m ≤ hi := by
  obtain hm | hm := Nat.lt_or_ge m 6500
  · have here := h (m / 500) (by omega)
    have next := h (m / 500 + 1) (by omega)
    obtain ⟨-, hlow, hhigh⟩ := interpolate_line p hm
    omega
  · have hcap : interpolate p m = p 13 := if_pos (show 13 ≤ m / 500 by omega)
    exact hcap ▸ h 13 le_rfl

/-- What stages 6 and 7 take of the envelope lies in the table's ranges, the slip target aside (R60). -/
def EnvelopeInRange (e : EnvelopePoint) : Prop :=
  e.torqueCeiling ≤ 1024 ∧ (500 ≤ e.brakeCeiling ∧ e.brakeCeiling ≤ 12000) ∧ (64 ≤ e.frontShare ∧ e.frontShare ≤ 230) ∧
    e.trailerShare ≤ 128

theorem envelopeAt_inRange {t : Table} {g : Nat} (ht : TableInRange t) (hg : g ≤ 3) (m : Nat) :
    EnvelopeInRange (envelopeAt t m g) := by
  have column (f : EnvelopePoint → Nat) {lo hi : Nat} (h : ∀ b ≤ 13, lo ≤ f (t.point b g) ∧ f (t.point b g) ≤ hi) :
      lo ≤ interpolate (fun b => f (t.point b g)) m ∧ interpolate (fun b => f (t.point b g)) m ≤ hi := interpolate_between h m
  refine ⟨(column (·.torqueCeiling) (lo := 0) fun b hb => ?_).2, column (·.brakeCeiling) fun b hb => ?_,
    column (·.frontShare) fun b hb => ?_, (column (·.trailerShare) (lo := 0) fun b hb => ?_).2⟩
  all_goals obtain ⟨-, -, htorque, hbrakeLow, hbrakeHigh, hfrontLow, hfrontHigh, htrailer⟩ := ht.1 b g hb hg
  · exact ⟨Nat.zero_le _, htorque⟩
  · exact ⟨hbrakeLow, hbrakeHigh⟩
  · exact ⟨hfrontLow, hfrontHigh⟩
  · exact ⟨Nat.zero_le _, htrailer⟩

/-- The envelope of a computation is in range: its active grade is one of the table's four (R98). -/
theorem compute_env_inRange (c : Computation) {t : Table} (ht : TableInRange t) (hmode : ModeInRange c.mode)
    (hobserved : c.observer.observed ≤ 3) : EnvelopeInRange (compute c t).env := by
  obtain ⟨-, -, -, -, -, -, -, -, -, -, -, -, -, -, hgrade, -⟩ := hmode
  exact envelopeAt_inRange ht (max_le hgrade hobserved) _

/-! ### Slip (R83, R84) -/

theorem slipOf_eq (front rear : Option Nat) (vMin : Nat) :
    match front, rear with
    | some f, some w =>
      if f < vMin then (slipOf front rear vMin).1 = .speedLow ∧ (slipOf front rear vMin).2.1 = 0
      else (slipOf front rear vMin).1 = .computed ∧ (slipOf front rear vMin).2.1 = max (-999) (min 999 (slipQuotient f w))
    | _, _ => (slipOf front rear vMin).1 = .absent ∧ (slipOf front rear vMin).2.1 = 0 := by
  obtain _ | f := front
  · exact ⟨rfl, rfl⟩
  obtain _ | w := rear
  · exact ⟨rfl, rfl⟩
  simp only [slipOf]
  split
  · exact ⟨rfl, rfl⟩
  · exact ⟨rfl, clampInt_eq_max_min _ (by decide)⟩

/-! ### The regulator (R86 to R88) -/

theorem reductionAfter_active {mode : ModeRecord} {start : OpState} (h : start = .active) (status : SlipStatus) (slip : Int)
    (target rPrev : Nat) : (reductionAfter mode start status slip target rPrev : Int) = max 0 (min 1024
      (if status = .computed ∧ (target : Int) < slip then rPrev + ((slip - target) * mode.ki).tdiv 256 else rPrev - mode.rel)) := by
  have hclamp := clampInt_eq_max_min (regulatorStep mode status slip target rPrev) (show (0 : Int) ≤ 1024 by decide)
  rw [reductionAfter, if_pos h, Int.toNat_of_nonneg (le_clampInt _ (by decide)), hclamp]
  simp only [regulatorStep, truncDiv, Int.sub_pos]

theorem reductionAfter_idle {mode : ModeRecord} {start : OpState} (h : start ≠ .active) (status : SlipStatus) (slip : Int)
    (target rPrev : Nat) : reductionAfter mode start status slip target rPrev = 0 := if_neg h

/-! ### Load and ceilings (R90, R105 to R107) -/

theorem LoadRecord.factors_inRange {l : LoadRecord} (h : LoadInRange l) (cls : LoadClass) : FactorsInRange (l.factors cls) := by
  obtain ⟨solo, pillion, luggage, trailer⟩ := h
  cases cls with
  | solo => exact solo
  | pillion => exact pillion
  | pillionLuggage => exact luggage
  | trailer => exact trailer

/-- C is the scaled envelope torque less R, 0 where R is the larger: the upper clamp never acts on an envelope in range (R90). -/
theorem torqueCeiling_eq {tEnv tf : Nat} (r : Nat) (ht : tEnv ≤ 1024) (hf : tf ≤ 256) :
    torqueCeiling tEnv tf r = tEnv * tf / 256 - r := by
  have := part_le tEnv hf
  rw [torqueCeiling, torqueLoad, clampInt_eq_max_min _ (by decide)]
  omega

/-- D lies between half the envelope's brake ceiling and all of it (R105, R107). -/
theorem brakeCeiling_between {bEnv bf : Nat} (hlow : 128 ≤ bf) (hhigh : bf ≤ 256) :
    bEnv / 2 ≤ brakeCeiling bEnv bf ∧ brakeCeiling bEnv bf ≤ bEnv := by
  have := Nat.mul_le_mul_left bEnv hlow
  refine ⟨?_, part_le bEnv hhigh⟩
  unfold brakeCeiling
  omega

/-! ### The trailer (R106, R108) -/

theorem trailerPresent_iff (v : LaneView) : trailerPresent v = true ↔ Available v ∧ v.slot.getD 0 0 = 1 := by
  have hone : v.unsigned 0 = 1 ↔ v.slot.getD 0 0 = 1 := BitVec.toNat_inj (y := 1)
  rw [trailerPresent, Bool.and_eq_true, beq_iff_eq, LaneView.available_iff, hone]

/-- The trailer level: the envelope's share of the measured deceleration, which D limits (R108). -/
theorem trailerLevel_eq (cls : LoadClass) (imu : LaneView) (d share : Nat) : (trailerLevel cls (usedAx imu) d share : Int) =
    if cls = .trailer ∧ Available imu then min (max (-(imu.signed 2)) 0) d * share / 256 else 0 := by
  by_cases himu : Available imu
  · have hnonneg : 0 ≤ min (max (-(imu.signed 2)) 0) (d : Int) := by omega
    simp only [trailerLevel, usedAx, (LaneView.available_iff imu).mpr himu, himu, and_true, if_true]
    split
    · push_cast [Int.toNat_of_nonneg hnonneg]
      rfl
    · rfl
  · have hgone : imu.available = false := by simpa using mt (LaneView.available_iff imu).mp himu
    simp [trailerLevel, usedAx, hgone, himu]

/-- A share of at most 128/256 gives at most half of D (R60, R108). -/
theorem trailerLevel_le_half (cls : LoadClass) (ax : Int) (d : Nat) {share : Nat} (h : share ≤ 128) :
    2 * trailerLevel cls ax d share ≤ d := by
  unfold trailerLevel
  split
  · have hd : (min (max (-ax) 0) (d : Int)).toNat ≤ d := by omega
    have hmul := Nat.mul_le_mul hd h
    omega
  · omega

/-! ### The statement -/

/-- Settles O25: each result by its stage's equation, and the bounds by the ranges of envelope and factors. -/
theorem stagesSixAndSeven : Obligations.StagesSixAndSeven := by
  rintro c t r ht hmode hsolo hpillion hluggage htrailer hobserved rfl
  obtain ⟨htorque, ⟨hbrakeLow, hbrakeHigh⟩, hfront, hshare⟩ := compute_env_inRange c ht hmode hobserved
  obtain ⟨-, htf, hbfLow, hbfHigh⟩ : FactorsInRange (compute c t).factors :=
    LoadRecord.factors_inRange ⟨hsolo, hpillion, hluggage, htrailer⟩ _
  have hc : (compute c t).c = (compute c t).env.torqueCeiling * (compute c t).factors.tf / 256 - (compute c t).reduction :=
    torqueCeiling_eq _ htorque htf
  have hload := part_le (compute c t).env.torqueCeiling htf
  obtain ⟨hdLow, hdHigh⟩ : (compute c t).env.brakeCeiling / 2 ≤ (compute c t).d ∧
      (compute c t).d ≤ (compute c t).env.brakeCeiling :=
    brakeCeiling_between hbfLow hbfHigh
  have hhalf : 2 * (compute c t).level ≤ (compute c t).d := trailerLevel_le_half _ _ _ hshare
  refine ⟨slipOf_eq _ _ _, fun hactive => reductionAfter_active hactive _ _ _ _, trailerPresent_iff _, rfl, rfl, rfl,
    trailerLevel_eq _ _ _ _, reductionAfter_le _ _ _ _ _ _, fun hidle => reductionAfter_idle hidle _ _ _ _, hc, ?_, hdHigh, ?_, ?_,
    fun hcls => if_neg hcls, hhalf, ?_, hfront⟩
  all_goals omega

end Sys2Proof.Machine
end

section
/-! PROOF. Stage 8 of a computation, the grip observer: the bucket's moves, the spill, the quiet count, and their order. -/

namespace Sys2Proof.Machine

open Sys2Proof.Safety

/-! ### The bucket (R100, R101) -/

/-- No regulator at work: the bucket drains by one. -/
theorem moveBucket_released (mode : ModeRecord) (rPrev bucket : Nat) : moveBucket mode rPrev 0 bucket = bucket - 1 := if_pos rfl

/-- R leaves 0: an episode starts, and its weight goes into the bucket. A bucket and a weight in range stay below the limit 1023. -/
theorem moveBucket_episodeStart {mode : ModeRecord} {r bucket : Nat} (hr : r ≠ 0) (hbucket : bucket ≤ 255)
    (hweight : mode.episodeWeight ≤ 255) : moveBucket mode 0 r bucket = bucket + mode.episodeWeight := by
  rw [moveBucket, if_neg hr, if_pos rfl]
  omega

/-- An episode that goes on moves nothing. -/
theorem moveBucket_engaged (mode : ModeRecord) {rPrev r : Nat} (bucket : Nat) (hr : r ≠ 0) (hprev : rPrev ≠ 0) :
    moveBucket mode rPrev r bucket = bucket := by
  rw [moveBucket, if_neg hr, if_neg hprev]

theorem spill_full {o : Observer} (h : 256 ≤ o.bucket) : spill o = ⟨0, 0, min 3 (o.observed + 1)⟩ := if_pos h

theorem spill_notFull {o : Observer} (h : o.bucket ≤ 255) : spill o = o := if_neg (Nat.not_le.mpr (Nat.lt_succ_of_le h))

/-! ### The quiet count (R102) -/

/-- A regulator at work or a bucket not empty ends the quiet; a count of 0 is below every limit, so nothing is restored. -/
theorem settle_stirred {mode : ModeRecord} {r : Nat} {o : Observer} (hlimit : 0 < mode.restoreFrames)
    (h : r ≠ 0 ∨ o.bucket ≠ 0) : settle mode r o = ⟨o.bucket, 0, o.observed⟩ := by
  have hloud : ¬(r = 0 ∧ o.bucket = 0) := not_and_or.mpr h
  have hshort : ¬(mode.restoreFrames ≤ 0 ∧ 0 < o.observed) := fun hfull => Nat.not_le.mpr hlimit hfull.1
  simp only [settle, if_neg hloud, if_neg hshort]

/-- With R at 0 and the bucket empty the count goes on, and a full count restores one grade. -/
theorem settle_quiet (mode : ModeRecord) (quiet observed : Nat) : settle mode 0 ⟨0, quiet, observed⟩ =
    if mode.restoreFrames ≤ min 65535 (quiet + 1) ∧ 0 < observed then ⟨0, 0, observed - 1⟩
    else ⟨0, min 65535 (quiet + 1), observed⟩ := rfl

/-! ### Stage 8 (R99) -/

theorem observe_idle {start : OpState} (h : start ≠ .active) (mode : ModeRecord) (rPrev r : Nat) (o : Observer) :
    observe mode start rPrev r o = o := if_neg h

theorem observe_active (mode : ModeRecord) (rPrev r : Nat) (o : Observer) : observe mode .active rPrev r o =
    settle mode r (spill ⟨moveBucket mode rPrev r o.bucket, o.quiet, o.observed⟩) := rfl

section
variable {mode : ModeRecord} {rPrev r : Nat} {o : Observer}

theorem observe_episodeStart (hlimit : 0 < mode.restoreFrames) (hweight : mode.episodeWeight ≤ 255) (hbucket : o.bucket ≤ 255)
    (hr : r ≠ 0) : observe mode .active 0 r o =
      if 256 ≤ o.bucket + mode.episodeWeight then ⟨0, 0, min 3 (o.observed + 1)⟩
      else ⟨o.bucket + mode.episodeWeight, 0, o.observed⟩ := by
  rw [observe_active, moveBucket_episodeStart hr hbucket hweight, settle_stirred hlimit (.inl hr)]
  split
  next hfull => rw [spill_full hfull]
  next hroom => rw [spill_notFull (Nat.le_of_lt_succ (Nat.not_le.mp hroom))]

theorem observe_engaged (hlimit : 0 < mode.restoreFrames) (hbucket : o.bucket ≤ 255) (hr : r ≠ 0) (hprev : rPrev ≠ 0) :
    observe mode .active rPrev r o = ⟨o.bucket, 0, o.observed⟩ := by
  rw [observe_active, moveBucket_engaged mode _ hr hprev, settle_stirred hlimit (.inl hr), spill_notFull hbucket]

theorem observe_draining (hlimit : 0 < mode.restoreFrames) (hbucket : o.bucket ≤ 255) (hmore : 1 < o.bucket) :
    observe mode .active rPrev 0 o = ⟨o.bucket - 1, 0, o.observed⟩ := by
  have hleft : o.bucket - 1 ≠ 0 := by omega
  rw [observe_active, moveBucket_released, spill_notFull ((Nat.sub_le _ _).trans hbucket), settle_stirred hlimit (.inr hleft)]

/-- A bucket of 1 or 0 is empty once it has drained, so the same stage counts a quiet computation. -/
theorem observe_quiet (hlast : o.bucket ≤ 1) : observe mode .active rPrev 0 o =
    if mode.restoreFrames ≤ min 65535 (o.quiet + 1) ∧ 0 < o.observed then ⟨0, 0, o.observed - 1⟩
    else ⟨0, min 65535 (o.quiet + 1), o.observed⟩ := by
  rw [observe_active, moveBucket_released, Nat.sub_eq_zero_of_le hlast, spill_notFull (Nat.zero_le _), settle_quiet]

end

/-! ### The statement -/

/-- Settles O26: the four moves in ACTIVE, told apart by R, R_prev and the bucket; the mode record's ranges keep the sum of bucket and
weight below 1023 and the restore limit above 0. -/
theorem observerStep : Obligations.ObserverStep := by
  refine ⟨fun _ _ => rfl, fun mode start rPrev r o hmode ho => ?_⟩
  obtain ⟨-, -, -, -, -, -, -, -, -, -, -, -, -, -, -, -, hweight, hrestore, -⟩ := hmode
  have hlimit : 0 < mode.restoreFrames := by omega
  have ⟨hbucket, _, _⟩ := ho
  refine ⟨observe_inRange mode start rPrev r ho, fun hidle => observe_idle hidle mode rPrev r o, ?_, ?_, ?_, ?_⟩
  · rintro rfl hr rfl
    exact observe_episodeStart hlimit hweight hbucket hr
  · rintro rfl hr hprev
    exact observe_engaged hlimit hbucket hr hprev
  · rintro rfl rfl hmore
    exact observe_draining hlimit hbucket hmore
  · rintro rfl rfl hlast
    exact observe_quiet hlast

end Sys2Proof.Machine
end

section
/-! PROOF. MODE_GO and ABANDON in every operating state (R119 to R123, R127, R170). -/

namespace Sys2Proof.Machine

open Sys2Proof.Safety

/-! ### Changes of state and the completion that follows -/

/-- A change to a state other than LIMP is its entry and its STATE notice (R116). -/
theorem changeState_taken {new : OpState} (reason : StateReason) {s : State} (hm : s.ram.wf = true) (hnew : new ≠ .limp) :
    NoticeTaken .state new.code (u32 s.sc.op.code) (u32 reason.code) { s with sc := s.sc.enter new }
      (changeState new reason s) := by
  simp only [changeState, if_neg hnew]
  exact offerNotice_taken (s := { s with sc := s.sc.enter new }) _ _ _ _ hm

theorem changeState_wf (new : OpState) (reason : StateReason) {s : State} (hm : s.ram.wf = true) :
    (changeState new reason s).ram.wf = true := wf_storable.changeState new reason hm

/-- A MODE_GO that changes the state: from `old` to `new`, which leaves the State Controller as `entered`; then its answer OK. -/
theorem finish_changeState {r : Request} {s : State} {old new : OpState} {entered : StateController} (hm : s.ram.wf = true)
    (hslot : r.slot < 16) (hold : s.sc.op = old) (hnew : new ≠ .limp) (hsc : s.sc.enter new = entered) :
    ∃ u, NoticeTaken .state new.code (u32 old.code) 1 { s with sc := entered } u ∧
      Completes r .ok 0 [] u (finish r .ok 0 [] (changeState new .modeGo s)) := by
  subst hold hsc
  exact ⟨_, changeState_taken .modeGo hm hnew, finish_completes _ _ (changeState_wf _ _ hm) hslot (Nat.zero_le _)⟩

theorem calFailedNotice_taken (why : CalFailure) {s : State} (hm : s.ram.wf = true) :
    NoticeTaken .cal why.code (u32 s.sc.calCount) (u32 s.sc.priorState.code) s (calFailedNotice why s) :=
  offerNotice_taken _ _ _ _ hm

/-- The end of a calibration leaves the recovery count (R126 to R128). -/
theorem StateController.endCalibration_eq (c : StateController) {target : OpState} (hop : c.op = .calibrating)
    (htarget : target ≠ .limp) : c.noCalibration.enter target = { c with
      op := target, calCount := 0, sums := ⟨0, 0, 0, 0⟩
      activeEntered := if target = .active then true else c.activeEntered } := by
  simp only [enter, noCalibration, zeroSums, hop, htarget, reduceCtorEq, or_self, if_false]

/-- A calibration that ends without success: its request answered, its CAL notice, and its change of state, which leaves the State
Controller as `entered` (R126 to R128). -/
theorem failCalibration_taken {why : CalFailure} {target : OpState} {reason : StateReason} {s : State} {entered : StateController}
    (hm : s.ram.wf = true) (hlong : ∀ e ∈ s.rqe.long, e.slot < 16) (hop : s.sc.op = .calibrating) (htarget : target ≠ .limp)
    (hsc : s.sc.noCalibration.enter target = entered) :
    ∃ u v, LongCompletes .calibration .calFailed why.code [u32 s.sc.calCount] s u ∧
      NoticeTaken .cal why.code (u32 s.sc.calCount) (u32 s.sc.priorState.code) u v ∧
      NoticeTaken .state target.code 1 (u32 reason.code) { v with sc := entered } (failCalibration why target reason s) := by
  subst hsc
  have hanswer := completeLong_completes .calibration .calFailed why.code (payload := [u32 s.sc.calCount]) hm hlong
    (Nat.le_of_ble_eq_true rfl)
  have hnotice := calFailedNotice_taken why
    (wf_storable.completeLong .calibration .calFailed why.code [u32 s.sc.calCount] (s := s) hm)
  have hwf := noticeTaken_wf hnotice (wf_storable.completeLong .calibration .calFailed why.code [u32 s.sc.calCount] (s := s) hm)
  simp only [completeLong_frame] at hnotice
  refine ⟨_, _, hanswer, hnotice, ?_⟩
  have hchange := changeState_taken reason
    (s := { calFailedNotice why (completeLong .calibration .calFailed why.code [u32 s.sc.calCount] s) with
      sc := s.sc.noCalibration }) hwf htarget
  rw [show s.sc.noCalibration.op = .calibrating from hop] at hchange
  simp only [failCalibration, calFailedNotice_frame, completeLong_frame] at hchange ⊢
  exact hchange

theorem failCalibration_wf (why : CalFailure) (target : OpState) (reason : StateReason) {s : State} (hm : s.ram.wf = true) :
    (failCalibration why target reason s).ram.wf = true := wf_storable.failCalibration why target reason hm

/-! ### The rows of MODE_GO -/

theorem modeGoTo_iff (target : Word) (r : Request) : modeGoTo target r = true ↔ r.kind = 4 ∧ r.param1 = target := by
  simp [modeGoTo, kindModeGo]

theorem exec_modeGoDormant {s : State} {r : Request} (htaken : s.rqe.execution = some ⟨r, .taken⟩) (hkind : r.kind = 4)
    (htarget : r.param1 = 0) : exec .modeGoDormant s = .next (finish r .ok 0 [] (goDormant s)) :=
  congrArg Host.Outcome.next
    (withTaken_runs (run := fun r t => finish r .ok 0 [] (goDormant t)) htaken ((modeGoTo_iff 0 r).mpr ⟨hkind, htarget⟩))

theorem exec_modeGoStandby {s : State} {r : Request} (htaken : s.rqe.execution = some ⟨r, .taken⟩) (hkind : r.kind = 4)
    (htarget : r.param1 = 1) : exec .modeGoStandby s = .next (goStandby r s) :=
  congrArg Host.Outcome.next (withTaken_runs (run := goStandby) htaken ((modeGoTo_iff 1 r).mpr ⟨hkind, htarget⟩))

theorem exec_modeGoActive {s : State} {r : Request} (htaken : s.rqe.execution = some ⟨r, .taken⟩) (hkind : r.kind = 4)
    (htarget : r.param1 = 2) : exec .modeGoActive s = .next (goActive r s) :=
  congrArg Host.Outcome.next (withTaken_runs (run := goActive) htaken ((modeGoTo_iff 2 r).mpr ⟨hkind, htarget⟩))

theorem exec_modeGoCalibrate {s : State} {r : Request} (htaken : s.rqe.execution = some ⟨r, .taken⟩) (hkind : r.kind = 4)
    (htarget : r.param1 = 3) : exec .modeGoCalibrate s = .next (goCalibrate r s) :=
  congrArg Host.Outcome.next (withTaken_runs (run := goCalibrate) htaken ((modeGoTo_iff 3 r).mpr ⟨hkind, htarget⟩))

/-! ### MODE_GO to DORMANT and to STANDBY -/

/-- Settles O34: every change of state is `finish_changeState`, and DORMANT ends a calibration by `failCalibration_taken`. -/
theorem modeGoDormantStandby : Obligations.ModeGoDormantStandby := by
  constructor
  · intro s r htaken hm hslot hlong hkind htarget
    refine ⟨_, exec_modeGoDormant htaken hkind htarget, ?_⟩
    unfold goDormant
    cases hop : s.sc.op with
    | dormant => exact finish_completes _ _ hm hslot (Nat.zero_le _)
    | calibrating =>
      obtain ⟨u, v, hanswer, hnotice, hstate⟩ :=
        failCalibration_taken (why := .dormant) (target := .dormant) (reason := .modeGo) hm hlong hop (by decide)
          (s.sc.endCalibration_eq hop (by decide))
      exact ⟨u, v, _, hanswer, hnotice, hstate, finish_completes _ _ (failCalibration_wf _ _ _ hm) hslot (Nat.zero_le _)⟩
    | standby | active | limp =>
      exact finish_changeState hm hslot hop (new := .dormant) (by decide) (by simp [StateController.enter, hop])
  · intro s r htaken hm hslot hkind htarget
    refine ⟨_, exec_modeGoStandby htaken hkind htarget, ?_⟩
    unfold goStandby
    cases hop : s.sc.op with
    | dormant =>
      dsimp only
      split
      · exact finish_changeState hm hslot hop (new := .standby) (by decide) (by simp [StateController.enter, hop])
      · exact finish_completes _ _ hm hslot (Nat.zero_le _)
    | calibrating | standby => exact finish_completes _ _ hm hslot (Nat.zero_le _)
    | active | limp =>
      exact finish_changeState hm hslot hop (new := .standby) (by decide) (by simp [StateController.enter, hop])

/-! ### MODE_GO to ACTIVE -/

/-- A report without any of the four facts is the clean one (R121). -/
theorem LimpReport.clean_iff (f : LimpReport) : f.clean = true ↔ f = ⟨false, false, false, false⟩ := by
  obtain ⟨imu, reference, masked, escalation⟩ := f
  simp [LimpReport.clean, and_assoc]

/-- The facts a refusal names, each at its bit (R121). -/
theorem refusedCondition_some (f : LimpReport) : refusedCondition (some f) =
    if f = ⟨false, false, false, false⟩ then none
    else some ((if f.imuUnavailable then 1 else 0) + (if f.referenceUnavailable then 2 else 0) + (if f.maskedCause then 4 else 0)) := by
  simp only [refusedCondition, LimpReport.clean_iff, bitOf, mul_ite, mul_one, mul_zero]

/-- Settles O35: an accepted request changes the state of the part with its escalation cleared; in LIMP the last report decides. -/
theorem modeGoActive : Obligations.ModeGoActive := by
  rintro s r cleared htaken hm hslot hkind htarget hcleared
  obtain rfl : cleared = clearEscalation s := hcleared
  refine ⟨_, exec_modeGoActive htaken hkind htarget, ?_⟩
  unfold goActive
  cases hop : s.sc.op with
  | dormant =>
    dsimp only
    split
    · exact finish_changeState (s := clearEscalation s) hm hslot hop (new := .active) (by decide)
        (by simp [StateController.enter, hop])
    · exact finish_completes _ _ hm hslot (Nat.zero_le _)
  | calibrating => exact finish_completes _ _ hm hslot (Nat.zero_le _)
  | standby =>
    exact finish_changeState (s := clearEscalation s) hm hslot hop (new := .active) (by decide)
      (by simp [StateController.enter, hop])
  | active => exact finish_completes (s := clearEscalation s) _ _ hm hslot (Nat.zero_le _)
  | limp =>
    cases hreport : s.sc.lastReport with
    | none => exact finish_completes _ _ hm hslot (Nat.zero_le _)
    | some f =>
      by_cases hclean : f = ⟨false, false, false, false⟩
      · simp only [refusedCondition_some, if_pos hclean]
        exact finish_changeState (s := clearEscalation s) hm hslot hop (new := .active) (by decide)
          (by simp [StateController.enter, hop, hreport])
      · simp only [refusedCondition_some, if_neg hclean]
        exact finish_completes _ _ hm hslot (Nat.zero_le _)

/-! ### MODE_GO to CALIBRATE -/

/-- A calibration begun outside LIMP leaves the recovery count (R123). -/
theorem StateController.beginCalibration_eq (c : StateController) {old target : OpState} (hold : c.op = old) (hlimp : old ≠ .limp) :
    c.beginCalibration target = { c with
      op := .calibrating, prior := some old, thenTarget := some target, calCount := 0, sums := ⟨0, 0, 0, 0⟩ } := by
  subst hold
  simp [beginCalibration, noCalibration, enter, hlimp, zeroSums]

/-- A calibration begun: its STATE notice, and no frame of it in the computation in flight (R123, R124). -/
theorem startCalibration_taken (target : OpState) {s : State} (hm : s.ram.wf = true) :
    NoticeTaken .state 1 (u32 s.sc.op.code) 1
      { s with
        sc := s.sc.beginCalibration target
        fcu := { s.fcu with inFlight := s.fcu.inFlight.map fun c => { c with calFrame := false } } }
      (startCalibration target s) :=
  changeState_taken (new := .calibrating) .modeGo hm (by decide) (s := { s with
    sc := { s.sc with prior := some s.sc.op, thenTarget := some target, calCount := 0, sums := zeroSums }
    fcu := { s.fcu with inFlight := s.fcu.inFlight.map fun c => { c with calFrame := false } } })

/-- An accepted MODE_GO to CALIBRATE begins a calibration and is left TAKEN (R123). -/
theorem acceptCalibration_begins {r : Request} {s : State} {old target : OpState} (hm : s.ram.wf = true) (hold : s.sc.op = old)
    (hlimp : old ≠ .limp) (htarget : thenTargetOf r = target) :
    ∃ u, NoticeTaken .state 1 (u32 old.code) 1
        { s with
          sc := { s.sc with
            op := .calibrating, prior := some old, thenTarget := some target, calCount := 0, sums := ⟨0, 0, 0, 0⟩ }
          fcu := { s.fcu with inFlight := s.fcu.inFlight.map fun c => { c with calFrame := false } } } u ∧
      StaysTaken r .calibration u (acceptCalibration r s) := by
  have hnotice := startCalibration_taken (thenTargetOf r) hm
  rw [s.sc.beginCalibration_eq hold hlimp, hold, htarget] at hnotice
  exact ⟨_, hnotice, htarget ▸ stayTaken_stays _ _ _⟩

/-- Settles O36: the parameters pass their check, so the operating state and, in STANDBY and ACTIVE, the motion data decide between a
refusal and `acceptCalibration_begins`. -/
theorem modeGoCalibrate : Obligations.ModeGoCalibrate := by
  rintro s r target moving begun htaken hm hslot hkind htarget hthen hmoving rfl
  have hcheck : modeGoCheck r = none := by
    obtain ⟨hp, -⟩ | ⟨hp, -⟩ := hthen <;> simp [modeGoCheck, htarget, hp]
  have hthenTarget : thenTargetOf r = target := by
    obtain ⟨hp, rfl⟩ | ⟨hp, rfl⟩ := hthen <;> simp [thenTargetOf, hp]
  obtain rfl : moving = judgedMoving s.sc.lastMotion := by
    rw [hmoving]
    cases s.sc.lastMotion <;> rfl
  have refuses (code : ResultCode) (detail : Nat) : Completes r code detail [] s (finish r code detail [] s) :=
    finish_completes _ _ hm hslot (Nat.zero_le _)
  refine ⟨_, exec_modeGoCalibrate htaken hkind htarget, ?_⟩
  unfold goCalibrate
  rw [hcheck]
  cases hop : s.sc.op with
  | dormant => exact acceptCalibration_begins hm hop (by decide) hthenTarget
  | calibrating | limp => exact refuses _ _
  | standby | active =>
    cases judgedMoving s.sc.lastMotion with
    | some detail => exact refuses .refusedMoving detail
    | none => exact acceptCalibration_begins hm hop (by decide) hthenTarget

/-! ### ABANDON -/

theorem abandonOf_iff (target : Word) (r : Request) : abandonOf target r = true ↔ r.kind = 5 ∧ r.param1 = target := by
  simp [abandonOf, kindAbandon]

theorem exec_abandonTransition {s : State} {r : Request} (htaken : s.rqe.execution = some ⟨r, .taken⟩) (hkind : r.kind = 5)
    (htarget : r.param1 = 0) : exec .abandonTransition s = .next (abandonCalibration r s) :=
  congrArg Host.Outcome.next (withTaken_runs (run := abandonCalibration) htaken ((abandonOf_iff 0 r).mpr ⟨hkind, htarget⟩))

theorem exec_abandonCapture {s : State} {r : Request} (htaken : s.rqe.execution = some ⟨r, .taken⟩) (hkind : r.kind = 5)
    (htarget : r.param1 = 1) : exec .abandonCapture s = .next (abandonRunningCapture r s) :=
  congrArg Host.Outcome.next (withTaken_runs (run := abandonRunningCapture) htaken ((abandonOf_iff 1 r).mpr ⟨hkind, htarget⟩))

theorem abandonCalibration_idle {s : State} (r : Request) (hop : s.sc.op ≠ .calibrating) :
    abandonCalibration r s = finish r .refusedState 0 [] s := by
  unfold abandonCalibration
  cases h : s.sc.op with
  | calibrating => exact absurd h hop
  | dormant | standby | active | limp => rfl

/-- Settles O37: a transition ends by `failCalibration_taken` in its prior state, a capture by `completeLong_completes`. -/
theorem abandon : Obligations.Abandon := by
  intro s r htaken hm hslot hlong hkind
  constructor
  · intro htarget
    refine ⟨_, exec_abandonTransition htaken hkind htarget, ?_⟩
    split_ifs with hop
    · intro hprior
      obtain ⟨prior, hp, hlimp⟩ : ∃ prior, s.sc.prior = some prior ∧ prior ≠ .limp := by
        obtain hp | hp | hp := hprior <;> exact ⟨_, hp, by decide⟩
      obtain ⟨u, v, hanswer, hnotice, hstate⟩ :=
        failCalibration_taken (why := .abandoned) (target := prior) (reason := .abandon) hm hlong hop hlimp
          (s.sc.endCalibration_eq hop hlimp)
      rw [priorState_of_prior hp] at hnotice
      simp only [abandonCalibration, hop, priorState_of_prior hp]
      exact ⟨u, v, _, prior, hp, hanswer, hnotice, hstate,
        finish_completes _ _ (failCalibration_wf _ _ _ hm) hslot (Nat.zero_le _)⟩
    · rw [abandonCalibration_idle r hop]
      exact finish_completes _ _ hm hslot (Nat.zero_le _)
  · intro htarget
    refine ⟨_, exec_abandonCapture htaken hkind htarget, ?_⟩
    unfold abandonRunningCapture
    cases hk : s.fcu.capture with
    | none => exact finish_completes _ _ hm hslot (Nat.zero_le _)
    | some k =>
      have hanswer := completeLong_completes (s := { s with fcu := { s.fcu with capture := none } }) .capture .partialCapture
        k.next (payload := capturePayload k) hm hlong (Nat.le_of_ble_eq_true rfl)
      exact ⟨_, hanswer, finish_completes _ _ (wf_storable.completeLong _ _ _ _ hm) hslot (Nat.zero_le _)⟩

end Sys2Proof.Machine
end

section
/-! PROOF. The layout of messages, characters and words, the check of R138, and the codes and addresses as numbers. -/

namespace Sys2Proof.Machine

/-! ### The check (R138) -/

theorem crcShift_eq (c : Byte) : crcShift c = if c.getLsbD 7 = true then (c <<< 1) ^^^ 0x07 else c <<< 1 := by
  rw [crcShift, BitVec.msb_eq_getLsbD_last]

/-- The register while one byte is covered: the byte added, then shift after shift (R138). -/
def crcRegister (bytes : List Byte) (b : Byte) (k : Nat) : Byte := crcShift^[k] (crc8 bytes ^^^ b)

theorem crcRegister_succ (bytes : List Byte) (b : Byte) (k : Nat) :
    crcRegister bytes b (k + 1) = crcShift (crcRegister bytes b k) := Function.iterate_succ_apply' crcShift k _

/-- One more byte moves the check by eight shifts (R138). -/
theorem crc8_append (bytes : List Byte) (b : Byte) : crc8 (bytes ++ [b]) = crcRegister bytes b 8 := by
  rw [crc8, List.foldl_append]
  rfl

/-! ### Messages (R137, R191) -/

theorem ChannelId.station_lt (c : ChannelId) : c.station < 4 := by
  cases c <;> decide

theorem Source.code_lt (src : Source) : src.code < 4 := by
  cases src <;> decide

theorem bitOf_lt (b : Bool) : bitOf b < 2 := by
  cases b <;> decide

theorem addressByte_toNat (c : ChannelId) (toggle : Bool) (src : Source) :
    (addressByte c toggle src).toNat = c.station + 4 * bitOf toggle + 8 * src.code := by
  have := c.station_lt
  have := src.code_lt
  have := bitOf_lt toggle
  simp only [addressByte, u8, BitVec.toNat_ofNat]
  omega

/-- The fields of the address byte at their bits (R191). -/
theorem addressByte_fields (c : ChannelId) (toggle : Bool) (src : Source) :
    ((addressByte c toggle src).extractLsb' 0 2).toNat = c.station ∧ (addressByte c toggle src).getLsbD 2 = toggle ∧
      ((addressByte c toggle src).extractLsb' 3 2).toNat = src.code ∧ (addressByte c toggle src).extractLsb' 5 3 = 0 := by
  have hn := addressByte_toNat c toggle src
  have := c.station_lt
  have := src.code_lt
  have hbit := bitOf_lt toggle
  have htoggle : (addressByte c toggle src).toNat / 4 % 2 = bitOf toggle := by omega
  refine ⟨?_, ?_, ?_, BitVec.eq_of_toNat_eq ?_⟩
  · simp only [BitVec.extractLsb'_toNat, Nat.shiftRight_eq_div_pow]
    omega
  · rw [BitVec.getLsbD, Nat.testBit_eq_decide_div_mod_eq, htoggle]
    cases toggle <;> rfl
  · simp only [BitVec.extractLsb'_toNat, Nat.shiftRight_eq_div_pow]
    omega
  · simp only [BitVec.extractLsb'_toNat, Nat.shiftRight_eq_div_pow, BitVec.ofNat_eq_ofNat, BitVec.toNat_ofNat]
    omega

theorem byteOf_u32_zero (n : Nat) : byteOf (u32 n) 0 = BitVec.ofNat 8 n := by
  refine BitVec.eq_of_toNat_eq ?_
  simp only [byteOf, u32, BitVec.extractLsb'_toNat, Nat.shiftRight_eq_div_pow, BitVec.toNat_ofNat]
  omega

theorem byteOf_u32_one (n : Nat) : byteOf (u32 n) 1 = BitVec.ofNat 8 (n / 256) := by
  refine BitVec.eq_of_toNat_eq ?_
  simp only [byteOf, u32, BitVec.extractLsb'_toNat, Nat.shiftRight_eq_div_pow, BitVec.toNat_ofNat]
  omega

/-! ### Words by their bytes (R187) -/

theorem byteOf_pack8_zero (b0 b1 b2 b3 : Byte) : byteOf (pack8 b0 b1 b2 b3) 0 = b0 := by
  refine BitVec.eq_of_getLsbD_eq fun i hi => ?_
  simp only [byteOf, pack8, BitVec.getLsbD_extractLsb', BitVec.getLsbD_append, hi, decide_true, Bool.true_and, Nat.mul_zero,
    Nat.zero_add, if_true]

theorem lowHalf_pack8 (b0 b1 b2 b3 : Byte) : lowHalf (pack8 b0 b1 b2 b3) = b1 ++ b0 := by
  refine BitVec.eq_of_getLsbD_eq fun i hi => ?_
  simp only [lowHalf, pack8, BitVec.getLsbD_extractLsb', BitVec.getLsbD_append, hi, decide_true, Bool.true_and, Nat.zero_add]
  split
  · rfl
  · rw [if_pos (by omega)]

theorem Memory.readWord_eq (m : Memory) {i : Nat} (hi : i < 2048) :
    m.readWord i = pack8 (m.readByte (4 * i)) (m.readByte (4 * i + 1)) (m.readByte (4 * i + 2)) (m.readByte (4 * i + 3)) :=
  if_pos hi

/-- The host's read count by its two bytes (R183). -/
theorem readCountOf_eq (m : Memory) : readCountOf m = m.readByte 0x0045 ++ m.readByte 0x0044 := by
  rw [readCountOf, m.readWord_eq (by decide), lowHalf_pack8]
  rfl

/-- A slot's mark is its first byte (R187). -/
theorem slotMark_eq (m : Memory) {k : Nat} (hk : k < 16) : slotMark m k = m.readByte (0x0700 + 128 * k) := by
  have hplace : slotWord k < 2048 := by
    unfold slotWord
    omega
  rw [slotMark, m.readWord_eq hplace, byteOf_pack8_zero, show 4 * slotWord k = 0x0700 + 128 * k by unfold slotWord; omega]

/-- The lane error flags at their bits, bits 7:6 at 0 (R182; notes/assumptions/25.md). -/
theorem LaneFlags.toByte_bits (f : LaneFlags) : (List.range 8).map f.toByte.getLsbD =
    [f.parity, f.frame, f.short, f.tag, f.stray, f.implausible, false, false] := by
  obtain ⟨parity, frame, short, tag, stray, implausible⟩ := f
  revert parity frame short tag stray implausible
  decide

/-- Settles O43: the check's register is `crcRegister`, the address byte's fields come from its number, a character's bits from what the
receiver reads back; the codes and addresses are computed. -/
theorem messageLayout : Obligations.MessageLayout := by
  refine ⟨by decide, rfl, fun bytes b => ⟨crcRegister bytes b, rfl, crc8_append bytes b, fun k _ => ?_⟩, fun c toggle msg => ?_,
    fun b => ?_, ?_, ?_, fun _ _ _ _ _ _ => ⟨rfl, rfl, rfl⟩⟩
  · rw [crcRegister_succ, crcShift_eq]
  · obtain ⟨hstation, htoggle, hsource, hrest⟩ := addressByte_fields c toggle msg.source
    obtain ⟨p0, p1, p2, p3, hp⟩ : ∃ p0 p1 p2 p3, msg.payload.bytes = [p0, p1, p2, p3] := by
      cases msg.payload <;> exact ⟨_, _, _, _, rfl⟩
    rw [messageBytes, hp]
    simp only [List.cons_append, List.nil_append]
    refine ⟨rfl, hstation, htoggle, hsource, hrest, rfl, rfl, hp.symm.trans ?_, ?_⟩
    · cases msg.payload <;> simp only [Payload.bytes, byteOf_u32_zero, byteOf_u32_one, u8]
    · simp only [List.getD_cons_succ, List.getD_cons_zero, List.take_succ_cons, List.take_zero]
  · obtain ⟨hstart, hdata, hstop⟩ := characterOf_parts b
    refine ⟨hstart, fun i hi => ?_, hstop, hdata⟩
    have hbit := congrArg (·.getLsbD i) hdata
    simpa [charData, hi] using hbit
  · exact ⟨rfl, rfl, rfl, rfl, rfl, rfl, rfl, rfl, rfl, rfl, rfl, rfl, rfl, rfl, ⟨rfl, rfl, rfl⟩, LaneFlags.toByte_bits⟩
  · refine ⟨rfl, rfl, rfl, fun k => ?_, fun p => ?_, fun k => ?_, fun m => ⟨readCountOf_eq m, fun k => slotMark_eq m, fun _ => rfl⟩⟩
    · unfold slotWord
      omega
    · unfold noticeWord
      omega
    · unfold captureWord
      omega

end Sys2Proof.Machine
end

section
/-! PROOF. What the steps of a completion leave of a request slot that they do not answer: their notices, publication and frame record
lie outside the request board, and an answer there touches its own slot alone (R183). -/

namespace Sys2Proof.Machine

open Sys2Proof.Safety

/-! ### A slot kept -/

/-- From `s` to `t` nothing is written in slot `k` and SUMMARY.REQ_DONE, where set, stays set; the canonical form is kept. -/
def SlotKept (k : Nat) (s t : State) : Prop :=
  s.ram.wf = true → t.ram.wf = true ∧
    (∀ a, slotWord k ≤ a / 4 → a / 4 < slotWord k + 32 → t.ram.readByte a = s.ram.readByte a) ∧
    (s.xp.summary.getLsbD 0 = true → t.xp.summary.getLsbD 0 = true)

theorem SlotKept.ofSame {k : Nat} {s t : State} (hram : t.ram = s.ram) (hxp : t.xp = s.xp) : SlotKept k s t := by
  intro hm
  rw [hram, hxp]
  exact ⟨hm, fun _ _ _ => rfl, id⟩

theorem SlotKept.refl (k : Nat) (s : State) : SlotKept k s s := .ofSame rfl rfl

theorem SlotKept.trans {k : Nat} {s t u : State} (hst : SlotKept k s t) (htu : SlotKept k t u) : SlotKept k s u := by
  intro hm
  obtain ⟨hwf, hbytes, hdone⟩ := hst hm
  obtain ⟨hwf', hbytes', hdone'⟩ := htu hwf
  exact ⟨hwf', fun a hlow hhigh => (hbytes' a hlow hhigh).trans (hbytes a hlow hhigh), hdone' ∘ hdone⟩

theorem raise_reqDone {p : ExchangePort} (bit : BitVec 7) (h : p.summary.getLsbD 0 = true) :
    (p.raise bit).summary.getLsbD 0 = true := by
  simp [ExchangePort.raise, portWith, h]

theorem SlotKept.raised {k : Nat} {s t : State} (bit : BitVec 7) (hram : t.ram = s.ram) (hxp : t.xp = s.xp.raise bit) :
    SlotKept k s t := by
  intro hm
  rw [hram, hxp]
  exact ⟨hm, fun _ _ _ => rfl, raise_reqDone bit⟩

/-- Words below the request board or beyond it are no slot's. -/
theorem SlotKept.ofWords {k i : Nat} {ws : List Word} {s t : State} (hk : k < 16) (hplace : i + ws.length ≤ 448 ∨ 960 ≤ i)
    (hram : t.ram = s.ram.writeWords i ws) (hxp : t.xp = s.xp) : SlotKept k s t := by
  intro hm
  rw [hram, hxp]
  refine ⟨Memory.writeWords_wf ws i hm, fun a hlow hhigh => Memory.readByte_writeWords_ne ws _ i a ?_, id⟩
  unfold slotWord at hlow hhigh
  omega

/-- A notice is written into the notice header and the notice list. -/
theorem offerNotice_slotKept {k : Nat} (hk : k < 16) (kind : NoticeKind) (subject : Nat) (first second : Word) (s : State) :
    SlotKept k s (offerNotice kind subject first second s) := by
  have header {m m' : Memory} {w : Word} (h : Stored m m' headerWord [w]) (a : Nat) (hlow : slotWord k ≤ a / 4) :
      m'.readByte a = m.readByte a := by
    obtain ⟨-, -, hframe⟩ := h
    refine hframe a (.inr ?_)
    unfold headerWord slotWord at *
    simp only [List.length_singleton]
    omega
  intro hm
  have htaken := offerNotice_taken kind subject first second hm (s := s)
  refine ⟨noticeTaken_wf htaken hm, ?_⟩
  generalize offerNotice kind subject first second s = t at htaken
  unfold NoticeTaken at htaken
  split at htaken
  · subst htaken
    exact ⟨fun _ _ _ => rfl, id⟩
  split at htaken
  · obtain ⟨m, hheader, rfl⟩ := htaken
    exact ⟨fun a hlow _ => header hheader a hlow, id⟩
  · obtain ⟨m, m', ⟨-, -, hlist⟩, hheader, rfl⟩ := htaken
    refine ⟨fun a hlow hhigh => (header hheader a hlow).trans (hlist a (.inl ?_)), raise_reqDone noticeNewBit⟩
    unfold noticeWord slotWord at *
    omega

/-- A completed request writes its own slot. -/
theorem finishSlot_slotKept {k slot : Nat} (kind : Byte) (tag : Half) (code : ResultCode) (detail : Nat) {payload : List Word}
    (s : State) (hslot : slot < 16) (hne : slot ≠ k) (hp : payload.length ≤ 28) :
    SlotKept k s (finishSlot slot kind tag code detail payload s) := by
  intro hm
  obtain ⟨hwf, -, -, -, hframe⟩ := completedSlot_written kind tag code detail hm hslot hp
  refine ⟨hwf, fun a hlow hhigh => hframe a ?_, raise_reqDone reqDoneBit⟩
  unfold slotWord at *
  omega

theorem completeLong_slotKept {k : Nat} {owner : LongOwner} (code : ResultCode) (detail : Nat) {payload : List Word} {s : State}
    (hentry : ∀ x, longEntryOf s.rqe.long owner = some x → x.slot < 16 ∧ x.slot ≠ k) (hp : payload.length ≤ 28) :
    SlotKept k s (completeLong owner code detail payload s) := by
  unfold completeLong
  split
  · exact .refl k s
  · next x hx =>
    obtain ⟨hslot, hne⟩ := hentry x hx
    exact SlotKept.trans (.ofSame rfl rfl) (finishSlot_slotKept _ _ _ _ _ hslot hne hp)

theorem changeState_slotKept {k : Nat} (hk : k < 16) (new : OpState) (reason : StateReason) (s : State) :
    SlotKept k s (changeState new reason s) := by
  have hentered : SlotKept k s { s with sc := s.sc.enter new } := .ofSame rfl rfl
  simp only [changeState]
  split
  · exact (hentered.trans (offerNotice_slotKept hk _ _ _ _ _)).trans (.raised limpBit rfl rfl)
  · exact hentered.trans (offerNotice_slotKept hk _ _ _ _ _)

/-! ### Steps 1 to 3 of a completion -/

theorem supersede_slotKept {k : Nat} (hk : k < 16) (c : ChannelId) (x : Channel) (old msg : Message) (s : State) :
    SlotKept k s (supersede c x old msg s) := by
  unfold supersede
  dsimp only
  split
  · exact SlotKept.trans (.ofSame rfl rfl) (offerNotice_slotKept hk _ _ _ _ _)
  · exact .ofSame rfl rfl

theorem deposit_slotKept {k : Nat} (hk : k < 16) (c : ChannelId) (msg : Message) (s : State) : SlotKept k s (deposit c msg s) := by
  unfold deposit dueDeposit
  split
  · dsimp only
    split
    case h_4 | h_5 =>
      split
      · exact supersede_slotKept hk _ _ _ _ _
      · exact .ofSame rfl rfl
    all_goals exact .ofSame rfl rfl
  · exact .refl k s

theorem makeDeposits_slotKept {k : Nat} (hk : k < 16) (c : Computation) (r : Results) (s : State) :
    SlotKept k s (makeDeposits c r s) := by
  unfold makeDeposits
  split
  · exact .refl k s
  · exact (((deposit_slotKept hk _ _ _).trans (deposit_slotKept hk _ _ _)).trans (deposit_slotKept hk _ _ _)).trans
      (.ofSame rfl rfl)

theorem verdictNotice_slotKept {k : Nat} (hk : k < 16) (old new : Byte) (v : Nat) (s : State) :
    SlotKept k s (verdictNotice old new v s) := by
  unfold verdictNotice
  split
  · exact .refl k s
  · exact offerNotice_slotKept hk _ _ _ _ _

theorem verdictNotices_slotKept {k : Nat} (hk : k < 16) (old new : Byte) (s : State) : SlotKept k s (verdictNotices old new s) := by
  have edges (vs : List Nat) : ∀ s, SlotKept k s (vs.foldl (fun t v => verdictNotice old new v t) s) := by
    induction vs with
    | nil => exact SlotKept.refl k
    | cons v rest ih => exact fun s => (verdictNotice_slotKept hk old new v s).trans (ih _)
  exact edges _ s

theorem unitNotices_slotKept {k : Nat} (hk : k < 16) (c : Computation) (r : Results) (s : State) :
    SlotKept k s (unitNotices c r s) := by
  have hescalation : SlotKept k s (escalationNotice c r s) := by
    unfold escalationNotice
    split
    · exact offerNotice_slotKept hk _ _ _ _ _
    · exact .refl k s
  have hgrade (t : State) : SlotKept k t (gradeNotice r t) := by
    unfold gradeNotice
    split
    · exact .refl k t
    · exact offerNotice_slotKept hk _ _ _ _ _
  exact ((hescalation.trans (hgrade _)).trans (verdictNotices_slotKept hk _ _ _)).trans (.ofSame rfl rfl)

/-! ### Steps 5 and 6 of a completion -/

theorem pageBody_length (c : Computation) (r : Results) (s : State) : (pageBody c r s).length = 63 := by
  simp [pageBody, channelWords]

theorem publish_slotKept {k : Nat} (hk : k < 16) (c : Computation) (r : Results) (s : State) : SlotKept k s (publish c r s) := by
  have hplace (n : Nat) (hn : n ≤ 64) : pageWord + n ≤ 448 := by
    unfold pageWord
    omega
  have word (v : Word) (t : State) : SlotKept k t { t with ram := t.ram.writeWord pageWord v } :=
    .ofWords (i := pageWord) (ws := [v]) hk (.inl (hplace 1 (by decide))) rfl rfl
  have page (body : List Word) (hbody : body.length = 63) (t : State) :
      SlotKept k t { t with ram := t.ram.writeWords (pageWord + 1) body } :=
    .ofWords hk (.inl (by rw [hbody, Nat.add_assoc]; exact hplace _ (by decide))) rfl rfl
  have hbody := pageBody_length c r s
  unfold publish
  generalize pageBody c r s = body at hbody
  exact (((word (s.fcu.publications + 1) s).trans (page body hbody _)).trans (word (s.fcu.publications + 2) _)).trans
    (.raised liveNewBit rfl rfl)

/-- The capture's answer spares slot `k`: its request stands in another slot, or the capture does not end at this completion. -/
def AnswerSpares (k : Nat) (s : State) : Prop :=
  ∀ x, longEntryOf s.rqe.long .capture = some x → x.slot < 16 ∧
    (x.slot = k → ∀ j, s.fcu.capture = some j → j.skipCurrent = true ∨ j.next + 1 < j.count)

theorem recordCapture_slotKept {k : Nat} (hk : k < 16) (c : Computation) (r : Results) {s : State} (hspares : AnswerSpares k s) :
    SlotKept k s (recordCapture c r s) := by
  have hplace (n : Nat) : 960 ≤ captureWord n := by
    unfold captureWord
    omega
  unfold recordCapture
  split
  · exact .refl k s
  · next j hj =>
    split
    · exact .ofSame rfl rfl
    · next hskip =>
      dsimp only
      split
      · exact .ofWords hk (.inr (hplace _)) rfl rfl
      · next hlast =>
        have hrecord (f : FrameUnit) : SlotKept k s
            { s with ram := s.ram.writeWords (captureWord j.next) (frameRecord c r s.sc.op), fcu := f } :=
          .ofWords hk (.inr (hplace _)) rfl rfl
        refine (hrecord _).trans (completeLong_slotKept _ _ (fun x hx => ?_) (Nat.le_of_ble_eq_true rfl))
        obtain ⟨hslot, hends⟩ := hspares x hx
        exact ⟨hslot, fun hsame => (hends hsame j hj).elim hskip hlast⟩

theorem completeComputation_slotKept {k : Nat} (hk : k < 16) (c : Computation) {s u : State}
    (hu : throughReport c (compute c s.table) s = u) (hspares : AnswerSpares k u) : SlotKept k u (completeComputation c s) := by
  subst hu
  have hrecord := recordCapture_slotKept hk c (compute c s.table)
    (s := publish c (compute c s.table) (throughReport c (compute c s.table) s)) (by simpa [AnswerSpares, publish] using hspares)
  exact ((publish_slotKept hk c _ _).trans hrecord).trans (.ofSame rfl rfl)

end Sys2Proof.Machine
end

section
/-! PROOF. A calibration frame: what it leaves of the State Controller and the lean, and how the calibration's request is answered
(R124 to R128). -/

namespace Sys2Proof.Machine

open Sys2Proof.Safety

/-! ### The frame judged -/

/-- A calibration frame with `n` frames accumulated before it and the sums `sums` with it (R124, R125). -/
theorem calibrationFrame_eq (p : Snapshot) {s : State} {n : Nat} {sums : CalSums} (hcount : s.sc.calCount = n)
    (hsums : (s.sc.accumulate p.imu).sums = sums) : calibrationFrame p s =
      if ¬(p.imu.state = .live ∧ p.front.state = .live ∧ p.rear.state = .live) then
        failCalibration .lanes s.sc.priorState .calFailed s
      else if 50 ≤ p.front.unsigned 0 ∨ 50 ≤ p.rear.unsigned 0 ∨ 500 ≤ (p.imu.signed 0).natAbs ∨ 500 ≤ (p.imu.signed 1).natAbs then
        failCalibration .motion s.sc.priorState .calFailed s
      else if n + 1 < 256 then { s with sc := s.sc.accumulate p.imu }
      else if sums.az.tdiv 256 < 4904 then
        failCalibration .attitude s.sc.priorState .calFailed { s with sc := s.sc.accumulate p.imu }
      else succeedCalibration sums.averages { s with sc := s.sc.accumulate p.imu } := by
  subst hcount hsums
  have hlive : (!calLanesLive p) = true ↔ ¬(p.imu.state = .live ∧ p.front.state = .live ∧ p.rear.state = .live) := by
    simp only [calLanesLive, Bool.not_eq_true', Bool.and_eq_false_iff, beq_eq_false_iff_ne]
    tauto
  have hmoving : calMoving p = true ↔ 50 ≤ p.front.unsigned 0 ∨ 50 ≤ p.rear.unsigned 0 ∨ 500 ≤ (p.imu.signed 0).natAbs ∨
      500 ≤ (p.imu.signed 1).natAbs := by
    simp only [calMoving, Bool.or_eq_true, decide_eq_true_eq, or_assoc]
  simp only [calibrationFrame, hlive, hmoving]
  rfl

/-- `d` is the State Controller `c` after a calibration frame: another operating state, frame count and sums, the mark of a stay in
ACTIVE set by an entry there, and every other field kept. -/
def KeptByFrame (c d : StateController) : Prop :=
  d = { c with
    op := d.op, calCount := d.calCount, sums := d.sums, activeEntered := if d.op = .active then true else c.activeEntered }

theorem keptByFrame_ended {c : StateController} (hrecovery : c.recovery = 0) (target : OpState) :
    KeptByFrame c (c.noCalibration.enter target) := by
  simp only [KeptByFrame, StateController.enter, StateController.noCalibration, hrecovery, ite_self]

theorem keptByFrame_accumulate {c : StateController} (hop : c.op = .calibrating) (imu : LaneView) :
    KeptByFrame c (c.accumulate imu) := by
  simp [KeptByFrame, StateController.accumulate, hop]

theorem calibrationFrame_kept (p : Snapshot) {s : State} (hop : s.sc.op = .calibrating) (hrecovery : s.sc.recovery = 0) :
    KeptByFrame s.sc (calibrationFrame p s).sc := by
  have failed (why : CalFailure) (t : State) (ht : t.sc.noCalibration = s.sc.noCalibration) :
      KeptByFrame s.sc (failCalibration why s.sc.priorState .calFailed t).sc := by
    rw [failCalibration_sc, ht]
    exact keptByFrame_ended hrecovery _
  rw [calibrationFrame_eq p rfl rfl]
  split
  · exact failed _ _ rfl
  split
  · exact failed _ _ rfl
  split
  · exact keptByFrame_accumulate hop p.imu
  split
  · exact failed _ _ rfl
  · rw [succeedCalibration_sc]
    exact keptByFrame_ended hrecovery _

/-! ### The part when its calibration frame is judged -/

/-- The part of a completion when its report is judged: steps 1 to 3 done, the report and its motion data stored (R34, R130). -/
def beforeReport (c : Computation) (r : Results) (s : State) : State :=
  storeReport c r (unitNotices c r (makeDeposits c r { s with fcu := s.fcu.step1 r }))

theorem throughReport_calibrationFrame {c : Computation} {s : State} (r : Results) (hop : s.sc.op = .calibrating)
    (hcal : c.calFrame = true) : throughReport c r s = calibrationFrame c.snapshot (beforeReport c r s) := by
  have hop' : (unitNotices c r (makeDeposits c r { s with fcu := s.fcu.step1 r })).sc.op = .calibrating := by simpa using hop
  rw [throughReport, takeReport_eq, hop']
  dsimp only
  rw [if_pos hcal]
  rfl

theorem beforeReport_sc (c : Computation) (r : Results) (s : State) : (beforeReport c r s).sc =
    { s.sc with lastReport := some (limpReport c r), lastMotion := some (motionData c r) } := by
  simp [beforeReport, storeReport]

theorem beforeReport_fcu (c : Computation) (r : Results) (s : State) : (beforeReport c r s).fcu =
    { s.fcu.step1 r with prevVerdicts := r.verdicts, prevActiveGrade := r.activeGrade } := by
  simp [beforeReport, storeReport, unitNotices_fcu]

theorem beforeReport_rqe (c : Computation) (r : Results) (s : State) : (beforeReport c r s).rqe = s.rqe := by
  simp [beforeReport, storeReport]

theorem beforeReport_slotKept {k : Nat} (hk : k < 16) (c : Computation) (r : Results) (s : State) :
    SlotKept k s (beforeReport c r s) := by
  have hstep1 : SlotKept k s { s with fcu := s.fcu.step1 r } := .ofSame rfl rfl
  have hstored (t : State) : SlotKept k t (storeReport c r t) := .ofSame rfl rfl
  exact ((hstep1.trans (makeDeposits_slotKept hk c r _)).trans (unitNotices_slotKept hk c r _)).trans (hstored _)

theorem exec_computationComplete {s : State} {c : Computation} (hc : s.fcu.inFlight = some c) :
    exec .computationComplete s = .next (completeComputation c s) := by
  simp only [exec, execComputationComplete, completeInFlight, hc]

/-! ### Lean, biases and validity -/

/-- What a calibration's success sets of the FCU (R125). -/
structure CalibratedValues where
  leanFine : Int
  reduction : Nat
  biasRoll : Int
  biasYaw : Int
  calValid : Bool

def FrameUnit.calibratedValues (f : FrameUnit) : CalibratedValues := ⟨f.leanFine, f.reduction, f.biasRoll, f.biasYaw, f.calValid⟩

theorem recordCapture_calibratedValues (c : Computation) (r : Results) (s : State) :
    (recordCapture c r s).fcu.calibratedValues = s.fcu.calibratedValues := by
  simp only [recordCapture]
  repeat' split
  all_goals simp [FrameUnit.calibratedValues]

theorem publish_calibratedValues (c : Computation) (r : Results) (s : State) :
    (publish c r s).fcu.calibratedValues = s.fcu.calibratedValues := by
  simp [publish, FrameUnit.calibratedValues]

/-- Steps 5 and 6 keep the State Controller and what a calibration sets. -/
theorem completeComputation_afterReport (c : Computation) {s u : State} (hu : throughReport c (compute c s.table) s = u) :
    (completeComputation c s).sc = u.sc ∧ (completeComputation c s).fcu.calibratedValues = u.fcu.calibratedValues := by
  subst hu
  exact ⟨by simp [completeComputation], (recordCapture_calibratedValues c _ _).trans (publish_calibratedValues c _ _)⟩

/-! ### The answers -/

/-- The slot of a long-running request reads as answered (R165, R187), SUMMARY.REQ_DONE set (R157). -/
def SlotAnswered (e : LongEntry) (code : ResultCode) (detail : Nat) (payload : List Word) (t : State) : Prop :=
  t.ram.readWord (slotWord e.slot) = firstWord markDone e.kind e.tag ∧
    t.ram.readWord (slotWord e.slot + 1) = pack16 (u16 code.code) (u16 detail) ∧
    (∀ i, i < payload.length → t.ram.readWord (slotWord e.slot + 4 + i) = payload.getD i 0) ∧
    t.xp.summary.getLsbD 0 = true

/-- An answer stands while its slot is kept. -/
theorem SlotAnswered.kept {e : LongEntry} {code : ResultCode} {detail : Nat} {payload : List Word} {s t : State}
    (h : SlotAnswered e code detail payload s) (hk : SlotKept e.slot s t) (hm : s.ram.wf = true) (hp : payload.length ≤ 28) :
    SlotAnswered e code detail payload t := by
  obtain ⟨hfirst, hresult, hpayload, hdone⟩ := h
  obtain ⟨-, hbytes, hstays⟩ := hk hm
  have word (i : Nat) (hi : i < 32) : t.ram.readWord (slotWord e.slot + i) = s.ram.readWord (slotWord e.slot + i) :=
    Memory.readWord_congr fun a ha => hbytes a (by omega) (by omega)
  refine ⟨(word 0 (by decide)).trans hfirst, (word 1 (by decide)).trans hresult, fun i hi => ?_, hstays hdone⟩
  rw [Nat.add_assoc, word _ (by omega), ← Nat.add_assoc]
  exact hpayload i hi

theorem completeLong_answered {e : LongEntry} {owner : LongOwner} {s : State} (code : ResultCode) (detail : Nat)
    {payload : List Word} (hm : s.ram.wf = true) (hentry : longEntryOf s.rqe.long owner = some e) (hslot : e.slot < 16)
    (hp : payload.length ≤ 28) : SlotAnswered e code detail payload (completeLong owner code detail payload s) := by
  obtain ⟨-, hfirst, hresult, hpayload, -⟩ := completedSlot_written e.kind e.tag code detail hm hslot hp
  rw [completeLong, hentry]
  exact ⟨hfirst, hresult, hpayload, by simp [finishSlot, ExchangePort.raise, portWith, reqDoneBit]⟩

/-- The notice and the change of state at a calibration's end keep every slot. -/
theorem announced_slotKept {k : Nat} (hk : k < 16) (kind : NoticeKind) (subject : Nat) (first second : Word) (c : StateController)
    (new : OpState) (reason : StateReason) (s : State) :
    SlotKept k s (changeState new reason { offerNotice kind subject first second s with sc := c }) := by
  have hcleared (t : State) : SlotKept k t { t with sc := c } := .ofSame rfl rfl
  exact ((offerNotice_slotKept hk kind subject first second s).trans (hcleared _)).trans (changeState_slotKept hk _ _ _)

/-- A calibration that fails answers its request CAL_FAILED with the frame count (R126, R165). -/
theorem failCalibration_answered {e : LongEntry} {s : State} (why : CalFailure) (target : OpState) (reason : StateReason)
    (hm : s.ram.wf = true) (hentry : longEntryOf s.rqe.long .calibration = some e) (hslot : e.slot < 16) :
    SlotAnswered e .calFailed why.code [u32 s.sc.calCount] (failCalibration why target reason s) := by
  have hanswer := completeLong_answered .calFailed why.code (payload := [u32 s.sc.calCount]) hm hentry hslot
    (Nat.le_of_ble_eq_true rfl)
  exact hanswer.kept (announced_slotKept hslot _ _ _ _ _ _ _ _) (wf_storable.completeLong _ _ _ _ hm) (Nat.le_of_ble_eq_true rfl)

/-- A calibration that succeeds answers its request OK with the biases and the initial lean (R125, R165). -/
theorem succeedCalibration_answered {e : LongEntry} {s : State} (avg : CalSums) (hm : s.ram.wf = true)
    (hentry : longEntryOf s.rqe.long .calibration = some e) (hslot : e.slot < 16) :
    SlotAnswered e .ok 0 [pack16 (toS16 avg.roll) (toS16 avg.yaw), pack16 (toS16 (initialLean avg.ay avg.az)) 0]
      (succeedCalibration avg s) := by
  have hanswer := completeLong_answered .ok 0 (s := { s with fcu := s.fcu.calibrated avg })
    (payload := [pack16 (toS16 avg.roll) (toS16 avg.yaw), pack16 (toS16 (initialLean avg.ay avg.az)) 0]) hm hentry hslot
    (Nat.le_of_ble_eq_true rfl)
  exact hanswer.kept (announced_slotKept hslot _ _ _ _ _ _ _ _) (wf_storable.completeLong _ _ _ _ hm) (Nat.le_of_ble_eq_true rfl)

/-! ### The capture beside the calibration -/

/-- The end of one owner's request leaves every other owner's entry. -/
theorem completeLong_entry {owner other : LongOwner} (hne : owner ≠ other) (code : ResultCode) (detail : Nat)
    (payload : List Word) (s : State) :
    longEntryOf (completeLong other code detail payload s).rqe.long owner = longEntryOf s.rqe.long owner := by
  unfold completeLong
  split
  · rfl
  · simp only [finishSlot_frame, longEntryOf, List.find?_filter]
    congr 1
    funext x
    by_cases h : x.owner = owner <;> simp [h, hne]

theorem failCalibration_entry (why : CalFailure) (target : OpState) (reason : StateReason) (s : State) :
    longEntryOf (failCalibration why target reason s).rqe.long .capture = longEntryOf s.rqe.long .capture := by
  simp [failCalibration, completeLong_entry]

theorem succeedCalibration_entry (avg : CalSums) (s : State) :
    longEntryOf (succeedCalibration avg s).rqe.long .capture = longEntryOf s.rqe.long .capture := by
  simp [succeedCalibration, completeLong_entry]

theorem succeedCalibration_fcu (avg : CalSums) (s : State) : (succeedCalibration avg s).fcu = s.fcu.calibrated avg := by
  simp [succeedCalibration]

/-- A calibration frame leaves the running capture and its request alone. -/
theorem calibrationFrame_capture (p : Snapshot) (s : State) : (calibrationFrame p s).fcu.capture = s.fcu.capture ∧
    longEntryOf (calibrationFrame p s).rqe.long .capture = longEntryOf s.rqe.long .capture := by
  have failed (why : CalFailure) (t : State) (hfcu : t.fcu = s.fcu) (hrqe : t.rqe = s.rqe) :
      (failCalibration why s.sc.priorState .calFailed t).fcu.capture = s.fcu.capture ∧
        longEntryOf (failCalibration why s.sc.priorState .calFailed t).rqe.long .capture = longEntryOf s.rqe.long .capture := by
    rw [failCalibration_entry, hrqe, ← hfcu]
    exact ⟨by simp, rfl⟩
  rw [calibrationFrame_eq p rfl rfl]
  split
  · exact failed _ _ rfl rfl
  split
  · exact failed _ _ rfl rfl
  split
  · exact ⟨rfl, rfl⟩
  split
  · exact failed _ _ rfl rfl
  · exact ⟨by simp [succeedCalibration_fcu, FrameUnit.calibrated], succeedCalibration_entry _ _⟩

theorem calibrationFrame_spares {k : Nat} (p : Snapshot) {s : State} (h : AnswerSpares k s) :
    AnswerSpares k (calibrationFrame p s) := by
  obtain ⟨hcapture, hentry⟩ := calibrationFrame_capture p s
  rwa [AnswerSpares, hcapture, hentry]

theorem beforeReport_spares {k : Nat} (c : Computation) (r : Results) {s : State} (h : AnswerSpares k s) :
    AnswerSpares k (beforeReport c r s) := by
  rw [AnswerSpares, beforeReport_rqe, beforeReport_fcu]
  exact h

/-! ### The statement -/

/-- The FCU `g` holds lean and R as stages 4 and 6 left them, the biases and the validity as `f` does. -/
def LeanAsComputed (r : Results) (f g : FrameUnit) : Prop :=
  g.leanFine = r.lean.leanFine ∧ g.reduction = r.reduction ∧ g.biasRoll = f.biasRoll ∧ g.biasYaw = f.biasYaw ∧
    g.calValid = f.calValid

theorem leanAsComputed_of_kept {c : Computation} {r : Results} {s : State} {g : FrameUnit}
    (h : g.calibratedValues = (beforeReport c r s).fcu.calibratedValues) : LeanAsComputed r s.fcu g := by
  rw [beforeReport_fcu] at h
  exact CalibratedValues.mk.inj h

/-- What a completion whose calibration frame fails the calibration leaves (R126, R128). -/
theorem completeComputation_failed {c : Computation} {s u : State} {why : CalFailure} {prior : OpState}
    (hframe : throughReport c (compute c s.table) s =
      failCalibration why (beforeReport c (compute c s.table) s).sc.priorState .calFailed u)
    (hfcu : u.fcu = (beforeReport c (compute c s.table) s).fcu) (hp : s.sc.prior = some prior) :
    some (completeComputation c s).sc.op = s.sc.prior ∧ (completeComputation c s).sc.calCount = 0 ∧
      (completeComputation c s).sc.sums = ⟨0, 0, 0, 0⟩ ∧
      LeanAsComputed (compute c s.table) s.fcu (completeComputation c s).fcu := by
  obtain ⟨hsc, hvalues⟩ := completeComputation_afterReport c hframe
  have hreturn : (beforeReport c (compute c s.table) s).sc.priorState = prior :=
    priorState_of_prior (by rw [beforeReport_sc]; exact hp)
  simp only [failCalibration_frame, hfcu] at hvalues
  rw [hsc, failCalibration_sc, hreturn, hp]
  exact ⟨rfl, rfl, rfl, leanAsComputed_of_kept hvalues⟩

/-- What a completion whose calibration frame is accumulated leaves (R124). -/
theorem completeComputation_accumulated {c : Computation} {s : State}
    (hframe : throughReport c (compute c s.table) s = { beforeReport c (compute c s.table) s with
      sc := (beforeReport c (compute c s.table) s).sc.accumulate c.snapshot.imu }) :
    (completeComputation c s).sc.op = s.sc.op ∧ (completeComputation c s).sc.calCount = s.sc.calCount + 1 ∧
      (completeComputation c s).sc.sums = (s.sc.accumulate c.snapshot.imu).sums ∧
      LeanAsComputed (compute c s.table) s.fcu (completeComputation c s).fcu := by
  obtain ⟨hsc, hvalues⟩ := completeComputation_afterReport c hframe
  rw [hsc, beforeReport_sc]
  exact ⟨rfl, rfl, rfl, leanAsComputed_of_kept hvalues⟩

/-- What a completion whose calibration frame ends the calibration with success leaves (R125, R55, R128). -/
theorem completeComputation_succeeded {c : Computation} {s u : State} {avg : CalSums} {target : OpState}
    (hframe : throughReport c (compute c s.table) s = succeedCalibration avg u) (htarget : u.sc.thenTarget = some target) :
    some (completeComputation c s).sc.op = some target ∧ (completeComputation c s).sc.calCount = 0 ∧
      (completeComputation c s).sc.sums = ⟨0, 0, 0, 0⟩ ∧ (completeComputation c s).fcu.calibratedValues =
        ⟨initialLean avg.ay avg.az * 1000, 0, avg.roll, avg.yaw, true⟩ := by
  obtain ⟨hsc, hvalues⟩ := completeComputation_afterReport c hframe
  rw [hsc, hvalues, succeedCalibration_sc, succeedCalibration_fcu, htarget]
  exact ⟨rfl, rfl, rfl, rfl⟩

theorem SlotAnswered.reads {e : LongEntry} {code : ResultCode} {detail : Nat} {first : Word} {rest : List Word} {t : State}
    (h : SlotAnswered e code detail (first :: rest) t) :
    t.ram.readWord (slotWord e.slot) = firstWord markDone e.kind e.tag ∧
      t.ram.readWord (slotWord e.slot + 1) = pack16 (u16 code.code) (u16 detail) ∧
      t.ram.readWord (slotWord e.slot + 4) = first ∧ t.xp.summary.getLsbD 0 = true := by
  obtain ⟨hfirst, hresult, hpayload, hdone⟩ := h
  exact ⟨hfirst, hresult, hpayload 0 (Nat.zero_lt_succ _), hdone⟩

end Sys2Proof.Machine

namespace Sys2Proof.Calibration

open Sys2Proof.Machine Sys2Proof.Safety

/-- Settles O21: `calibrationFrame_eq` judges the frame; each of its ends leaves what the lemma about that end says, and its answer stands
through the publication and the frame record, which keep the slot. -/
theorem calibrationFrame : Obligations.CalibrationFrame := by
  constructor
  · rintro s c r sums report motion hc rfl hop hcal hcontrol rfl rfl hsums
    have ⟨_, hrecovery, _, hrunning⟩ := hcontrol
    rw [hop] at hrunning
    obtain ⟨hprior, hthen, -⟩ := hrunning
    obtain ⟨prior, hp⟩ : ∃ prior, s.sc.prior = some prior := by
      obtain hp | ⟨hp | hp, -⟩ := hprior <;> exact ⟨_, hp⟩
    obtain ⟨target, htarget⟩ : ∃ target, s.sc.thenTarget = some target := by
      obtain ht | ht := hthen <;> exact ⟨_, ht⟩
    have hframe := throughReport_calibrationFrame (compute c s.table) hop hcal
    have hkept := calibrationFrame_kept c.snapshot (s := beforeReport c (compute c s.table) s)
      (by simp [beforeReport_sc, hop]) (by simp [beforeReport_sc, hrecovery, hop])
    rw [← (completeComputation_afterReport c hframe).1, beforeReport_sc] at hkept
    refine ⟨_, exec_computationComplete hc, hkept, ?_⟩
    rw [calibrationFrame_eq c.snapshot (n := s.sc.calCount) (sums := sums) (by rw [beforeReport_sc])
      (by rw [beforeReport_sc, hsums]; rfl)] at hframe
    dsimp only
    split_ifs at hframe ⊢ with hlive hmoving hmore hattitude
    · exact completeComputation_failed hframe rfl hp
    · have h := completeComputation_accumulated hframe
      rw [hop] at h
      rw [hsums]
      exact h
    · exact completeComputation_failed hframe rfl hp
    · obtain ⟨hstate, hcount, hzero, hvalues⟩ := completeComputation_succeeded (target := target) hframe
        (by rw [beforeReport_sc]; exact htarget)
      obtain ⟨hlean, hreduction, hroll, hyaw, hvalid⟩ := CalibratedValues.mk.inj hvalues
      rw [htarget]
      exact ⟨hstate, hcount, hzero, hvalid, hroll, hyaw, hreduction, hlean.trans (Int.mul_comm _ _)⟩
    · exact completeComputation_failed hframe rfl hp
  · intro s c e sums hc hop hcal hm hentry hslot hcount hcapture hsums
    have hbefore := beforeReport_slotKept hslot c (compute c s.table) s
    obtain ⟨hwf, hbytes, -⟩ := hbefore hm
    have hframe := throughReport_calibrationFrame (compute c s.table) hop hcal
    have hkept := completeComputation_slotKept hslot c hframe
      (calibrationFrame_spares _ (beforeReport_spares c _ hcapture))
    have hentry' : longEntryOf (beforeReport c (compute c s.table) s).rqe.long .calibration = some e := by
      rw [beforeReport_rqe]
      exact hentry
    have hn : (beforeReport c (compute c s.table) s).sc.calCount = s.sc.calCount := by rw [beforeReport_sc]
    refine ⟨_, exec_computationComplete hc, ?_⟩
    have hwf' := wf_storable.calibrationFrame c.snapshot (s := beforeReport c (compute c s.table) s) hwf
    rw [calibrationFrame_eq c.snapshot hn (sums := sums) (by rw [beforeReport_sc, hsums]; rfl)] at hkept hwf'
    dsimp only
    split_ifs at hkept hwf' ⊢ with hlive hmoving hmore hattitude
    · rw [← hn]
      exact ((failCalibration_answered .motion _ .calFailed hwf hentry' hslot).kept hkept hwf'
        (Nat.le_of_ble_eq_true rfl)).reads
    · intro a hlow hhigh
      obtain ⟨-, hlater, -⟩ := hkept hwf'
      exact (hlater a hlow hhigh).trans (hbytes a hlow hhigh)
    · have h := ((failCalibration_answered .attitude _ .calFailed (s := { beforeReport c (compute c s.table) s with
        sc := (beforeReport c (compute c s.table) s).sc.accumulate c.snapshot.imu }) hwf hentry' hslot).kept hkept hwf'
        (Nat.le_of_ble_eq_true rfl)).reads
      have hlast : (beforeReport c (compute c s.table) s).sc.calCount + 1 = 256 := by omega
      simp only [StateController.accumulate, hlast] at h
      exact h
    · have h := (succeedCalibration_answered sums.averages (s := { beforeReport c (compute c s.table) s with
        sc := (beforeReport c (compute c s.table) s).sc.accumulate c.snapshot.imu }) hwf hentry' hslot).kept hkept hwf'
        (Nat.le_of_ble_eq_true rfl)
      have ⟨_, _, hpayload, _⟩ := h
      exact ⟨h.reads, hpayload 1 (Nat.le_of_ble_eq_true rfl)⟩
    · rw [← hn]
      exact ((failCalibration_answered .lanes _ .calFailed hwf hentry' hslot).kept hkept hwf'
        (Nat.le_of_ble_eq_true rfl)).reads

end Sys2Proof.Calibration
end

section
/-! PROOF. What each operation of the Actuator Link Controller leaves, one channel read and replaced at a time, and what one command
can do to it: one inversion lemma, `exec_movesLink`. -/

namespace Sys2Proof.Machine

open Sys2Proof.Safety

/-! ### One channel read and replaced -/

@[simp] theorem LinkController.get_set_same (a : LinkController) (c : ChannelId) (x : Channel) : (a.set c x).get c = x := by
  cases c <;> rfl

theorem LinkController.get_set (a : LinkController) (c d : ChannelId) (x : Channel) :
    (a.set c x).get d = if d = c then x else a.get d := by
  cases c <;> cases d <;> rfl

@[simp] theorem LinkController.set_get (a : LinkController) (c : ChannelId) : a.set c (a.get c) = a := by
  cases c <;> rfl

@[simp] theorem LinkController.set_set (a : LinkController) (c : ChannelId) (x y : Channel) : (a.set c x).set c y = a.set c y := by
  cases c <;> rfl

/-- A channel replaced changes nothing else of the ALC. -/
@[simp] theorem LinkController.set_frame (a : LinkController) (c : ChannelId) (x : Channel) : (a.set c x).link = a.link ∧
    (a.set c x).outstanding = a.outstanding ∧ (a.set c x).stray = a.stray ∧ (a.set c x).rx = a.rx ∧
    (a.set c x).address = a.address ∧ (a.set c x).driven = a.driven := by
  cases c <;> exact ⟨rfl, rfl, rfl, rfl, rfl, rfl⟩

@[simp] theorem setChannel_alc (c : ChannelId) (x : Channel) (s : State) : (setChannel c x s).alc = s.alc.set c x := rfl

/-! ### What each operation makes of the ALC -/

theorem supersede_alc (c : ChannelId) (x : Channel) (old msg : Message) (s : State) : (supersede c x old msg s).alc =
    s.alc.set c { x with slot := some msg, missed := satInc 65535 x.missed, served := false } := by
  unfold supersede
  split <;> simp

/-- A deposit makes of its channel what R140 and R141 say. -/
theorem deposit_alc (c : ChannelId) (msg : Message) (s : State) :
    (deposit c msg s).alc = s.alc.set c (deposited (s.alc.record.interval c) msg (s.alc.get c)) := by
  unfold deposit isDue deposited
  by_cases hdue : msg.frame.toNat % s.alc.record.interval c = 0
  · simp only [hdue, beq_self_eq_true, if_true, ne_eq, not_true, if_false, dueDeposit]
    cases hstate : (s.alc.get c).state with
    | idle => rfl
    | stopping | stopped => simp
    | pending | outstanding => cases hslot : (s.alc.get c).slot <;> simp [supersede_alc, satInc, hstate]
  · simp [hdue]

/-- The end of a transaction moves its channel on and frees the link (R145 step 6). -/
theorem removeTransaction_alc (c : ChannelId) (cond : Condition) (s : State) : (removeTransaction c cond s).alc =
    (s.alc.set c { s.alc.get c with state := endedState (s.alc.get c) }).freed := by
  simp only [removeTransaction]
  split <;> simp [freeLink]

/-- The link becoming FREE leaves the channels, the stray count and the line (R143). -/
@[simp] theorem LinkController.freed_frame (a : LinkController) : a.freed.link = .free ∧ a.freed.outstanding = none ∧
    (∀ c, a.freed.get c = a.get c) ∧ a.freed.stray = a.stray ∧ a.freed.driven = a.driven := by
  unfold LinkController.freed
  split <;> exact ⟨rfl, rfl, fun _ => rfl, rfl, rfl⟩

/-- The receiver of a link that becomes FREE goes on, or at another rate starts afresh in HUNT (R136, R151). -/
theorem LinkController.freed_receiver (a : LinkController) :
    (a.freed.rx = a.rx ∧ a.freed.address = a.address) ∨ (a.freed.rx = .hunt ∧ a.freed.address = none) := by
  unfold LinkController.freed
  split
  · exact .inl ⟨rfl, rfl⟩
  · exact .inr ⟨rfl, rfl⟩

theorem endGood_alc (c : ChannelId) (cond : Condition) (s : State) : (endGood c cond s).alc =
    (s.alc.set c { s.alc.get c with
      last := cond, toggle := !(s.alc.get c).toggle, misses := 0, served := true, health := .ok
      state := endedState (s.alc.get c) }).freed := by
  simp only [endGood, removeTransaction_alc]
  split <;> split <;> simp [endedState]

theorem endMiss_alc (c : ChannelId) (cond : Condition) (s : State) : (endMiss c cond s).alc =
    (s.alc.set c { s.alc.get c with
      last := cond, misses := satInc 255 (s.alc.get c).misses
      health := healthAfterMiss s.alc.record.missLimit (satInc 255 (s.alc.get c).misses) (s.alc.get c).health
      state := endedState (s.alc.get c) }).freed := by
  simp only [endMiss, removeTransaction_alc]
  split <;> simp [endedState]

/-- An abandonment changes at most the transaction and the link state (R150 step 2). -/
@[simp] theorem abandonTransaction_frame (c : ChannelId) (a : LinkController) :
    (∀ d, (abandonTransaction c a).get d = a.get d) ∧ (abandonTransaction c a).stray = a.stray ∧
    (abandonTransaction c a).rx = a.rx ∧ (abandonTransaction c a).address = a.address ∧
    (abandonTransaction c a).driven = a.driven := by
  unfold abandonTransaction
  split <;> exact ⟨fun _ => rfl, rfl, rfl, rfl, rfl⟩

/-- A channel's transaction abandoned: it stands on, its link RESERVED for it if a reply was awaited (R150 step 2). -/
theorem abandonTransaction_of_transaction {c : ChannelId} {a : LinkController} (h : hasTransaction (a.get c) = true) :
    (abandonTransaction c a).link = (if a.link = .awaiting then .reserved else a.link) ∧
      (abandonTransaction c a).outstanding = a.outstanding.map fun t => { t with abandoned := true } := by
  rw [abandonTransaction, if_pos h]
  exact ⟨rfl, rfl⟩

theorem restartChannel_alc (c : ChannelId) (s : State) :
    (restartChannel c s).alc = (abandonTransaction c s.alc).set c (restarted (s.alc.get c)) := by
  simp only [restartChannel]
  split <;> simp

theorem adoptNamed_alc (mask : Word) (s : State) :
    (adoptNamed mask s).alc = s.alc ∨ ∃ r, (adoptNamed mask s).alc = s.alc.adopt r := by
  have before : (ifNamed mask 2 adoptLanes (ifNamed mask 1 adoptLoadRecord (ifNamed mask 0 adoptModeRecord s))).alc = s.alc := by
    rw [ifNamed_keeps (·.alc) (by simp), adoptModeLoad_eq]
  unfold adoptNamed
  rw [ifNamed]
  split
  · exact .inr ⟨_, congrArg (LinkController.adopt · _) before⟩
  · exact .inl before

/-- The ALC with its counts cleared (R152). -/
def LinkController.cleared (a : LinkController) : LinkController :=
  { a with
    engine := { a.engine with missed := 0 }
    brake := { a.brake with missed := 0 }
    trailer := { a.trailer with missed := 0 }
    stray := 0 }

theorem LinkController.cleared_get (a : LinkController) (c : ChannelId) : a.cleared.get c = { a.get c with missed := 0 } := by
  cases c <;> rfl

theorem clearNamed_alc (mask : Word) (s : State) : (clearNamed mask s).alc = s.alc ∨ (clearNamed mask s).alc = s.alc.cleared := by
  have before : (ifNamed mask 1 clearLanes (ifNamed mask 0 clearStickyFlags s)).alc = s.alc := by
    rw [ifNamed_keeps (·.alc) (by simp), ifNamed_keeps (·.alc) (by simp)]
  unfold clearNamed
  rw [ifNamed_keeps (·.alc) (by simp), ifNamed]
  split
  · exact .inr (congrArg LinkController.cleared before)
  · exact .inl before

/-! ### The moves -/

/-- What one command can make of one channel, a transaction's end and a RESTART apart (R140, R148, R149). -/
inductive ChannelMove (x : Channel) : Channel → Prop
  | deposited (interval : Nat) (msg : Message) : ChannelMove x (deposited interval msg x)
  | stopped : hasTransaction x = false → ChannelMove x { x with slot := none, state := .stopped }
  | stopping : x.state = .outstanding → ChannelMove x { x with slot := none, state := .stopping }
  | resumed : x.state = .stopped → ChannelMove x { x with state := .idle }

/-- One move of the ALC. A command makes some of them one after another. -/
inductive LinkMove (a : LinkController) : LinkController → Prop
  | reset : LinkMove a resetLink
  | channel (c : ChannelId) {x : Channel} : ChannelMove (a.get c) x → LinkMove a (a.set c x)
  | granted (c : ChannelId) {msg : Message} : a.link = .free → LinkMove a (grant c msg a)
  | sent {t : Transaction} : a.link = .sending → a.outstanding = some t → LinkMove a (a.sent t)
  | received (rx : RxState) (address : Option Byte) : a.rx ≠ .off → rx ≠ .off →
    (address.isSome = true → rx = .hunt ∨ rx = .receive) → LinkMove a { a with rx := rx, address := address }
  | strayCounted : LinkMove a { a with stray := satInc 255 a.stray }
  | ended {t : Transaction} (last : Condition) (toggle served : Bool) {misses : Nat} {health : Health} :
    a.link = .awaiting → a.outstanding = some t → misses ≤ 255 → (health = .ok ↔ misses = 0) →
    LinkMove a (a.set t.channel { a.get t.channel with
      last := last, toggle := toggle, misses := misses, served := served, health := health
      state := endedState (a.get t.channel) }).freed
  | unreserved : a.link = .reserved → LinkMove a a.freed
  | restarted (c : ChannelId) : LinkMove a ((abandonTransaction c a).set c (restarted (a.get c)))
  | adopted (r : LinkRecord) : LinkMove a (a.adopt r)
  | cleared : LinkMove a a.cleared

/-- The ALC makes moves of `LinkMove`, any number of them. -/
def MovesLink (s t : State) : Prop := Relation.ReflTransGen LinkMove s.alc t.alc

theorem MovesLink.ofKept {s t : State} (h : t.alc = s.alc) : MovesLink s t := by
  rw [MovesLink, h]

theorem MovesLink.refl (s : State) : MovesLink s s := .ofKept rfl

theorem MovesLink.ofMove {s t : State} (h : LinkMove s.alc t.alc) : MovesLink s t := .single h

theorem MovesLink.trans {s t u : State} (hst : MovesLink s t) (htu : MovesLink t u) : MovesLink s u :=
  Relation.ReflTransGen.trans hst htu

/-- What follows a move and keeps the ALC is part of it. -/
theorem MovesLink.congr {s t u : State} (h : MovesLink s t) (halc : u.alc = t.alc) : MovesLink s u := by
  rwa [MovesLink, halc]

/-! ### The operations that move something -/

theorem deposit_movesLink (c : ChannelId) (msg : Message) (s : State) : MovesLink s (deposit c msg s) :=
  .ofMove (by rw [deposit_alc]; exact .channel c (.deposited _ msg))

theorem consultArbiter_movesLink (s : State) : MovesLink s (consultArbiter s) := by
  unfold consultArbiter LinkController.consulted
  split
  · next c msg hgrant =>
    unfold grantable at hgrant
    split at hgrant
    · next hfree _ => exact .ofMove (.granted c hfree)
    · cases hgrant
  · exact .refl s

theorem completeInFlight_movesLink (s : State) : MovesLink s (completeInFlight s) := by
  have deposits (c : Computation) (r : Results) (t : State) : MovesLink t (makeDeposits c r t) := by
    unfold makeDeposits
    split
    · exact .refl t
    · exact (((deposit_movesLink _ _ _).trans (deposit_movesLink _ _ _)).trans (deposit_movesLink _ _ _)).trans
        (consultArbiter_movesLink _)
  unfold completeInFlight
  split
  · next c _ =>
    exact MovesLink.congr (deposits c (compute c s.table) { s with fcu := s.fcu.step1 (compute c s.table) })
      (by simp [completeComputation, throughReport])
  · exact .refl s

theorem setLinkRx_movesLink {rx : RxState} {address : Option Byte} {s : State} (hon : s.alc.rx ≠ .off) (hrx : rx ≠ .off)
    (haddress : address.isSome = true → rx = .hunt ∨ rx = .receive) : MovesLink s (setLinkRx rx address s) :=
  .ofMove (.received rx address hon hrx haddress)

theorem takeCharacter_movesLink (ch : BitVec 10) {s : State} (hrx : s.alc.rx = .receive) : MovesLink s (takeCharacter ch s) := by
  have hon : s.alc.rx ≠ .off := by simp [hrx]
  unfold takeCharacter
  split
  · exact setLinkRx_movesLink hon (by decide) (by simp)
  split
  · split
    · exact setLinkRx_movesLink hon (by decide) (by simp)
    · exact .refl s
  · exact setLinkRx_movesLink hon (by decide) (by simp)

theorem endGood_movesLink {t : Transaction} {s : State} (cond : Condition) (hlink : s.alc.link = .awaiting)
    (ht : s.alc.outstanding = some t) : MovesLink s (endGood t.channel cond s) :=
  .ofMove (by rw [endGood_alc]; exact .ended cond _ true hlink ht (Nat.zero_le _) (by simp))

theorem endMiss_movesLink {t : Transaction} {s : State} (cond : Condition) (hlink : s.alc.link = .awaiting)
    (ht : s.alc.outstanding = some t) : MovesLink s (endMiss t.channel cond s) := by
  refine .ofMove ?_
  rw [endMiss_alc]
  refine .ended cond _ _ hlink ht (Nat.min_le_left _ _) (iff_of_false ?_ (by simp [satInc]))
  unfold healthAfterMiss
  split_ifs <;> decide

theorem classifyAck_movesLink (address check : Byte) (s : State) : MovesLink s (classifyAck address check s) := by
  unfold classifyAck
  split
  · exact .ofMove .strayCounted
  · next hlink => exact .ofMove (.unreserved hlink)
  · next t hlink ht =>
    unfold classifyAwaited
    split
    · exact endMiss_movesLink _ hlink ht
    split
    · exact .ofMove .strayCounted
    split
    · exact endMiss_movesLink _ hlink ht
    · exact endGood_movesLink _ hlink ht
  · exact .refl s
  · exact .refl s

theorem restartChannel_movesLink (c : ChannelId) (s : State) : MovesLink s (restartChannel c s) :=
  .ofMove (by rw [restartChannel_alc]; exact .restarted c)

theorem requestStop_movesLink (r : Request) (s : State) : MovesLink s (requestStop r s) := by
  have stops (h : hasTransaction (s.alc.get (channelOf r)) = false) : MovesLink s (stopNow (channelOf r) s) :=
    .ofMove (.channel _ (.stopped h))
  unfold requestStop
  cases hstate : (s.alc.get (channelOf r)).state with
  | idle | pending => exact (stops (by simp [hasTransaction, hstate])).congr (by simp)
  | outstanding => exact MovesLink.congr (.ofMove (.channel _ (.stopping hstate))) (t := stopLater (channelOf r) s) (by simp)
  | stopping | stopped => exact .ofKept (by simp)

theorem requestResume_movesLink (r : Request) (s : State) : MovesLink s (requestResume r s) := by
  unfold requestResume
  split
  · next hstate =>
    exact MovesLink.congr (t := setChannel (channelOf r) { s.alc.get (channelOf r) with state := .idle } s)
      (.ofMove (.channel _ (.resumed hstate))) (by simp)
  · exact .ofKept (by simp)

theorem applyAdopt_movesLink (r : Request) (s : State) : MovesLink s (applyAdopt r s) := by
  have adopts : MovesLink s (adoptNamed r.param1 s) := by
    obtain h | ⟨record, h⟩ := adoptNamed_alc r.param1 s
    · exact .ofKept h
    · exact .ofMove (h ▸ .adopted record)
  exact adopts.congr (by simp [applyAdopt])

theorem applyClear_movesLink (r : Request) (s : State) : MovesLink s (applyClear r s) := by
  have clears : MovesLink s (clearNamed r.param1 s) := by
    obtain h | h := clearNamed_alc r.param1 s
    · exact .ofKept h
    · exact .ofMove (h ▸ .cleared)
  exact clears.congr (by simp [applyClear])

theorem executeAdopt_movesLink (r : Request) (s : State) : MovesLink s (executeAdopt r s) := by
  unfold executeAdopt
  split
  · exact gapRequest_keeps (applyAdopt_movesLink r s) (.ofKept rfl)
  · exact applyAdopt_movesLink r s

theorem executeClear_movesLink (r : Request) (s : State) : MovesLink s (executeClear r s) := by
  unfold executeClear
  split
  · exact gapRequest_keeps (applyClear_movesLink r s) (.ofKept rfl)
  · exact applyClear_movesLink r s

theorem applyWaiting_movesLink (r : Request) (s : State) : MovesLink s (applyWaiting r s) := by
  unfold applyWaiting
  split
  · exact applyAdopt_movesLink r s
  split
  · exact applyClear_movesLink r s
  split
  · exact .ofKept (by simp)
  split
  · exact .ofKept (by simp)
  · exact .refl s

/-! ### One command, one step -/

/-- A row that executes a taken request moves the ALC as the execution does, or not at all. -/
theorem withTaken_movesLink {belongs : Request → Bool} {run : Request → State → State} {s : State}
    (h : ∀ r, MovesLink s (run r s)) : MovesLink s (withTaken belongs run s) :=
  withTaken_keeps (P := MovesLink s) (.refl s) h

/-- The row of an acknowledgement's check character: the receiver back in HUNT, then what the acknowledgement comes to (R144). -/
theorem exec_ackArrival_movesLink {s7 s8 s9 : BitVec 10} {s t : State} (h : exec (.ackArrival s7 s8 s9) s = .next t) :
    MovesLink s t := by
  injection h with h
  subst h
  split
  · next address check hack =>
    unfold completedAck at hack
    split at hack
    · next hrx _ =>
      exact (setLinkRx_movesLink (by simp [hrx]) (by decide) (by simp)).trans (classifyAck_movesLink address check _)
    · cases hack
  · exact .refl s

/-- Every command moves the ALC as `LinkMove` says. -/
theorem exec_movesLink {i : Instr} {s t : State} (h : exec i s = .next t) : MovesLink s t := by
  cases i
  case ackArrival => exact exec_ackArrival_movesLink h
  all_goals (injection h with h; subst h)
  case powerOnReset => exact .ofMove .reset
  case softReset =>
    split
    · exact .ofMove .reset
    · exact .refl s
  case computationComplete => exact completeInFlight_movesLink s
  case linkGrant => exact consultArbiter_movesLink s
  case messageSent =>
    split
    · next t hlink ht => exact .ofMove (.sent hlink ht)
    · exact .refl s
  case linkIdleDetected | linkStartEdge | linkFalseStart | ackAddressDiscard =>
    split
    · next h => exact setLinkRx_movesLink (by simp [h.1]) (by decide) (by simp)
    · exact .refl s
  case linkCharacterArrival =>
    split
    · next hrx => exact takeCharacter_movesLink _ hrx
    · exact .refl s
  case replyTimeout =>
    split
    · next t hlink ht => exact endMiss_movesLink _ hlink ht
    · next hlink => exact .ofMove (.unreserved hlink)
    · exact .refl s
  case gapRequestApply =>
    split
    · exact applyWaiting_movesLink _ s
    · exact .refl s
  case channelStop => exact withTaken_movesLink fun r => requestStop_movesLink r s
  case channelResume => exact withTaken_movesLink fun r => requestResume_movesLink r s
  case channelRestart =>
    exact withTaken_movesLink fun r => (restartChannel_movesLink (channelOf r) s).congr (by simp)
  case adoptMode | adoptLoad | adoptLane | adoptLink => exact withTaken_movesLink fun r => executeAdopt_movesLink r s
  case clearSticky | clearLane | clearChannelCounts | clearNoticeHeader =>
    exact withTaken_movesLink fun r => executeClear_movesLink r s
  case tableDump => exact withTaken_movesLink fun r => gapRequest_keeps (.ofKept rfl) (.ofKept rfl)
  case refusedKind | refusedRange | tableLoad | modeGoDormant | modeGoStandby | modeGoActive | modeGoCalibrate
      | abandonTransition | abandonCapture | capture =>
    exact withTaken_movesLink fun r => .ofKept (by simp)
  case hostRamWrite | frameStart | attentionArrival | summaryWrite | summaryEnableWrite | registerWriteIgnored =>
    exact .ofKept (by simp)
  all_goals split <;> exact .ofKept (by simp)

/-- One step moves the ALC as `LinkMove` says. -/
theorem step_movesLink {s t : State} (h : step s = .next t) : MovesLink s t := by
  unfold step at h
  split at h
  · injection h with h
    exact h ▸ .refl s
  · next c rest _ => exact MovesLink.trans (t := s.withPending rest) (.ofKept rfl) (exec_movesLink h)

end Sys2Proof.Machine
end

section
/-! PROOF. The link, its transaction and the channels agree through every step (R139, R142, R143, R150). -/

namespace Sys2Proof.Safety

open Sys2Proof.Machine

/-- A transaction that stands agrees with its channel, the line and the link state. -/
structure TransactionAgrees (a : LinkController) (t : Transaction) : Prop where
  channel : t.abandoned = false → hasTransaction (a.get t.channel) = true ∧ (a.get t.channel).toggle = t.toggle
  bytes : t.bytes = messageBytes t.channel t.toggle t.message
  driven : a.link = .sending → a.driven = t.bytes.map characterOf
  awaiting : a.link = .awaiting → t.abandoned = false
  reserved : a.link = .reserved → t.abandoned = true
  window : t.window.isSome = true ↔ a.link ≠ .sending

/-- `LinkConsistent` with its clauses named and the channels taken together. -/
structure LinkAgrees (a : LinkController) : Prop where
  channel : ∀ c, ChannelConsistent (a.get c)
  stray : a.stray ≤ 255
  free : a.link = .free ↔ a.outstanding = none
  receiver : a.rx = .off ↔ a.link = .sending
  released : a.link ≠ .sending → a.driven = []
  address : a.address.isSome = true → a.rx = .hunt ∨ a.rx = .receive
  owner : ∀ c, hasTransaction (a.get c) = true → ∃ t, a.outstanding = some t ∧ t.channel = c ∧ t.abandoned = false
  transaction : ∀ t, a.outstanding = some t → TransactionAgrees a t

theorem linkConsistent_iff (a : LinkController) : LinkConsistent a ↔ LinkAgrees a := by
  constructor
  · rintro ⟨hengine, hbrake, htrailer, hstray, hfree, hrx, hdriven, haddress, howner, ht⟩
    refine ⟨fun c => by cases c <;> assumption, hstray, hfree, hrx, hdriven, haddress, howner, fun t h => ?_⟩
    obtain ⟨hchannel, hbytes, hsending, hawaiting, hreserved, hwindow⟩ := ht t h
    exact ⟨hchannel, hbytes, hsending, hawaiting, hreserved, hwindow⟩
  · intro h
    refine ⟨h.channel .engine, h.channel .brake, h.channel .trailer, h.stray, h.free, h.receiver, h.released, h.address, h.owner,
      fun t ht => ?_⟩
    obtain ⟨hchannel, hbytes, hsending, hawaiting, hreserved, hwindow⟩ := h.transaction t ht
    exact ⟨hchannel, hbytes, hsending, hawaiting, hreserved, hwindow⟩

/-! ### One channel -/

theorem hasTransaction_iff (x : Channel) : hasTransaction x = true ↔ x.state = .outstanding ∨ x.state = .stopping := by
  simp [hasTransaction]

/-- A channel with an empty slot agrees with itself in every state but PENDING. -/
theorem ChannelConsistent.emptied {x : Channel} (h : ChannelConsistent x) {state : ChannelState} (hstate : state ≠ .pending) :
    ChannelConsistent { x with slot := none, state := state } := by
  obtain ⟨-, -, hhealth, hmisses, hmissed⟩ := h
  exact ⟨fun hp => absurd hp hstate, by simp, hhealth, hmisses, hmissed⟩

theorem ChannelConsistent.slot_eq_none {x : Channel} (h : ChannelConsistent x) (hp : x.state ≠ .pending)
    (ho : x.state ≠ .outstanding) : x.slot = none := by
  obtain ⟨-, hslot, -⟩ := h
  by_contra hne
  exact (hslot (Option.isSome_iff_ne_none.mpr hne)).elim hp ho

/-- A deposit fills the slot of a channel that is then PENDING or OUTSTANDING (R140, R141). -/
theorem ChannelConsistent.deposited {x : Channel} (h : ChannelConsistent x) (interval : Nat) (msg : Message) :
    ChannelConsistent (deposited interval msg x) := by
  obtain ⟨hpending, hslot, hhealth, hmisses, hmissed⟩ := h
  unfold Safety.deposited
  split
  · exact ⟨hpending, hslot, hhealth, hmisses, hmissed⟩
  cases hstate : x.state with
  | idle => exact ⟨fun _ => rfl, fun _ => .inl rfl, hhealth, hmisses, hmissed⟩
  | pending | outstanding =>
    dsimp only
    split
    · exact ⟨fun _ => rfl, fun _ => by simp, hhealth, hmisses, Nat.min_le_left _ _⟩
    · exact ⟨fun _ => rfl, fun _ => by simp, hhealth, hmisses, hmissed⟩
  | stopping | stopped => exact ⟨hpending, hslot, hhealth, hmisses, hmissed⟩

theorem deposited_keeps (interval : Nat) (msg : Message) (x : Channel) :
    hasTransaction (deposited interval msg x) = hasTransaction x ∧ (deposited interval msg x).toggle = x.toggle := by
  unfold deposited
  split
  · exact ⟨rfl, rfl⟩
  cases hstate : x.state <;> dsimp only
  case idle => exact ⟨by rw [hasTransaction, hasTransaction, hstate]; rfl, rfl⟩
  case pending | outstanding => split <;> simp [hasTransaction, hstate]
  case stopping | stopped => exact ⟨rfl, rfl⟩

theorem endedState_ne (x : Channel) : endedState x ≠ .outstanding ∧ endedState x ≠ .stopping := by
  unfold endedState
  repeat' split
  all_goals decide

/-- A channel whose transaction has ended is STOPPED, PENDING with a message, or IDLE without one (R145 step 6). -/
theorem ChannelConsistent.ended {x : Channel} (h : ChannelConsistent x) (last : Condition) (toggle served : Bool) {misses : Nat}
    {health : Health} (hmisses : misses ≤ 255) (hhealth : health = .ok ↔ misses = 0) (ht : hasTransaction x = true) :
    ChannelConsistent { x with
      last := last, toggle := toggle, misses := misses, served := served, health := health, state := endedState x } := by
  have filled : endedState x = .pending ∧ x.slot.isSome = true ∨ endedState x ≠ .pending ∧ x.slot = none := by
    obtain hstate | hstate := (hasTransaction_iff x).mp ht
    · cases hslot : x.slot <;> simp [endedState, hstate, hslot]
    · exact .inr ⟨by simp [endedState, hstate], h.slot_eq_none (by simp [hstate]) (by simp [hstate])⟩
  obtain ⟨-, -, -, -, hmissed⟩ := h
  obtain ⟨hpending, hslot⟩ | ⟨hother, hslot⟩ := filled
  · exact ⟨fun _ => hslot, fun _ => .inl hpending, hhealth, hmisses, hmissed⟩
  · exact ⟨fun hp => absurd hp hother, by simp [hslot], hhealth, hmisses, hmissed⟩

/-! ### The operations on the ALC -/

theorem LinkAgrees.outstanding_eq_none {a : LinkController} (h : LinkAgrees a) (hfree : a.link = .free) : a.outstanding = none :=
  h.free.mp hfree

/-- On a FREE link no channel has a transaction (R139). -/
theorem LinkAgrees.no_transaction {a : LinkController} (h : LinkAgrees a) (hfree : a.link = .free) (c : ChannelId) :
    hasTransaction (a.get c) = false := by
  by_contra hc
  obtain ⟨t, ht, -⟩ := h.owner c (by simpa using hc)
  simp [h.outstanding_eq_none hfree] at ht

/-- A transaction that stands unabandoned is the only one a channel has (R139). -/
theorem LinkAgrees.no_other {a : LinkController} (h : LinkAgrees a) {t : Transaction} (ht : a.outstanding = some t) {c : ChannelId}
    (hc : c ≠ t.channel ∨ t.abandoned = true) : hasTransaction (a.get c) = false := by
  by_contra hhas
  obtain ⟨u, hu, hchannel, habandoned⟩ := h.owner c (by simpa using hhas)
  obtain rfl : t = u := Option.some.inj (ht.symm.trans hu)
  obtain hne | habandoned' := hc
  · exact hne hchannel.symm
  · simp [habandoned] at habandoned'

/-- One channel replaced by one that has a transaction exactly if it did, with the toggle sent. -/
theorem LinkAgrees.setChannel {a : LinkController} (h : LinkAgrees a) {c : ChannelId} {x : Channel} (hx : ChannelConsistent x)
    (ht : hasTransaction x = hasTransaction (a.get c)) (htoggle : hasTransaction x = true → x.toggle = (a.get c).toggle) :
    LinkAgrees (a.set c x) := by
  have same (d : ChannelId) : hasTransaction ((a.set c x).get d) = hasTransaction (a.get d) ∧
      (hasTransaction (a.get d) = true → ((a.set c x).get d).toggle = (a.get d).toggle) := by
    rw [LinkController.get_set]
    split
    · next hd => exact hd ▸ ⟨ht, ht ▸ htoggle⟩
    · exact ⟨rfl, fun _ => rfl⟩
  refine ⟨fun d => ?_, by simpa using h.stray, by simpa using h.free, by simpa using h.receiver, by simpa using h.released,
    by simpa using h.address, fun d hd => ?_, fun t hout => ?_⟩
  · rw [LinkController.get_set]
    split
    · exact hx
    · exact h.channel d
  · simpa using h.owner d ((same d).1 ▸ hd)
  · have agrees := h.transaction t (by simpa using hout)
    refine ⟨fun hstands => ?_, agrees.bytes, by simpa using agrees.driven, by simpa using agrees.awaiting,
      by simpa using agrees.reserved, by simpa using agrees.window⟩
    obtain ⟨hhas, hsent⟩ := agrees.channel hstands
    exact ⟨(same t.channel).1.trans hhas, ((same t.channel).2 hhas).trans hsent⟩

/-- A grant on a FREE link: the granted channel has the only transaction, with its toggle, its message driven onto the line
(R142). -/
theorem LinkAgrees.grant {a : LinkController} (h : LinkAgrees a) (c : ChannelId) (msg : Message) (hfree : a.link = .free) :
    LinkAgrees (grant c msg a) := by
  have get (d : ChannelId) : (Machine.grant c msg a).get d =
      if d = c then { a.get c with slot := none, state := .outstanding } else a.get d := LinkController.get_set a c d _
  refine ⟨fun d => ?_, by simpa [Machine.grant] using h.stray, by simp [Machine.grant], by simp [Machine.grant],
    by simp [Machine.grant], by simp [Machine.grant], fun d hd => ?_, ?_⟩
  · rw [get]
    split
    · exact (h.channel c).emptied (by decide)
    · exact h.channel d
  · rw [get] at hd
    split at hd
    · next hdc => exact ⟨_, rfl, hdc.symm, rfl⟩
    · simp [h.no_transaction hfree d] at hd
  · rintro t ⟨⟩
    exact ⟨fun _ => by simp [get, hasTransaction], rfl, fun _ => rfl, by simp [Machine.grant], by simp [Machine.grant],
      by simp [Machine.grant]⟩

/-- The end of sending: the reply window begins, in AWAITING or, for an abandoned transaction, in RESERVED (R143). -/
theorem LinkAgrees.sent {a : LinkController} (h : LinkAgrees a) {t : Transaction} (ht : a.outstanding = some t) :
    LinkAgrees (a.sent t) := by
  have agrees := h.transaction t ht
  have hlink : (a.sent t).link = if t.abandoned = true then .reserved else .awaiting := rfl
  have hnotFree : (a.sent t).link ≠ .free ∧ (a.sent t).link ≠ .sending := by
    rw [hlink]
    split <;> decide
  refine ⟨h.channel, h.stray, iff_of_false hnotFree.1 (by simp [LinkController.sent]), iff_of_false (by simp [LinkController.sent])
    hnotFree.2, fun _ => rfl, fun _ => .inl rfl, fun c hc => ?_, ?_⟩
  · obtain ⟨u, hu, hchannel, hstands⟩ := h.owner c hc
    obtain rfl : t = u := Option.some.inj (ht.symm.trans hu)
    exact ⟨_, rfl, hchannel, hstands⟩
  · rintro u ⟨⟩
    exact ⟨agrees.channel, agrees.bytes, fun hs => absurd hs hnotFree.2, by simp [hlink], by simp [hlink],
      iff_of_true rfl hnotFree.2⟩

/-- A receiver that is on takes another state but off (R136, R144). -/
theorem LinkAgrees.received {a : LinkController} (h : LinkAgrees a) {rx : RxState} {address : Option Byte} (hon : a.rx ≠ .off)
    (hrx : rx ≠ .off) (haddress : address.isSome = true → rx = .hunt ∨ rx = .receive) :
    LinkAgrees { a with rx := rx, address := address } where
  __ := h
  receiver := iff_of_false hrx (mt h.receiver.mpr hon)
  address := haddress
  transaction t ht := { h.transaction t ht with }

/-- The link becomes FREE where no channel has a transaction any more and the receiver is on (R143, R145). -/
theorem LinkAgrees.ofFreed {a : LinkController} (hchannel : ∀ c, ChannelConsistent (a.get c) ∧ hasTransaction (a.get c) = false)
    (hstray : a.stray ≤ 255) (hrx : a.rx ≠ .off) (hdriven : a.driven = [])
    (haddress : a.address.isSome = true → a.rx = .hunt ∨ a.rx = .receive) : LinkAgrees a.freed := by
  have receiver : a.freed.rx ≠ .off ∧ (a.freed.address.isSome = true → a.freed.rx = .hunt ∨ a.freed.rx = .receive) := by
    obtain ⟨hrx', haddress'⟩ | ⟨hrx', haddress'⟩ := a.freed_receiver
    · rw [hrx', haddress']
      exact ⟨hrx, haddress⟩
    · simp [hrx', haddress']
  obtain ⟨hon, haddressed⟩ := receiver
  exact ⟨by simpa using fun c => (hchannel c).1, by simpa using hstray, by simp, by simpa using hon, by simpa using hdriven,
    haddressed, by simp [hchannel], by simp⟩

/-- The receiver is on and the line released while a reply is awaited or the link RESERVED (R136, R143). -/
theorem LinkAgrees.receiving {a : LinkController} (h : LinkAgrees a) (hlink : a.link ≠ .sending) : a.rx ≠ .off ∧ a.driven = [] :=
  ⟨mt h.receiver.mp hlink, h.released hlink⟩

theorem LinkAgrees.ended {a : LinkController} (h : LinkAgrees a) {t : Transaction} (last : Condition) (toggle served : Bool)
    {misses : Nat} {health : Health} (hlink : a.link = .awaiting) (ht : a.outstanding = some t) (hmisses : misses ≤ 255)
    (hhealth : health = .ok ↔ misses = 0) :
    LinkAgrees (a.set t.channel { a.get t.channel with
      last := last, toggle := toggle, misses := misses, served := served, health := health
      state := endedState (a.get t.channel) }).freed := by
  obtain ⟨hrx, hdriven⟩ := h.receiving (by simp [hlink])
  have agrees := h.transaction t ht
  obtain ⟨hhas, -⟩ := agrees.channel (agrees.awaiting hlink)
  refine .ofFreed (fun c => ?_) (by simpa using h.stray) (by simpa using hrx) (by simpa using hdriven) (by simpa using h.address)
  rw [LinkController.get_set]
  split
  · exact ⟨(h.channel _).ended last toggle served hmisses hhealth hhas, by simp [hasTransaction, endedState_ne]⟩
  · next hc => exact ⟨h.channel c, h.no_other ht (.inl hc)⟩

theorem LinkAgrees.unreserved {a : LinkController} (h : LinkAgrees a) (hlink : a.link = .reserved) : LinkAgrees a.freed := by
  obtain ⟨hrx, hdriven⟩ := h.receiving (by simp [hlink])
  obtain ⟨t, ht⟩ : ∃ t, a.outstanding = some t := Option.ne_none_iff_exists'.mp (mt h.free.mpr (by simp [hlink]))
  exact .ofFreed (fun c => ⟨h.channel c, h.no_other ht (.inr ((h.transaction t ht).reserved hlink))⟩) h.stray hrx hdriven h.address

theorem restarted_consistent {x : Channel} (h : ChannelConsistent x) :
    ChannelConsistent (restarted x) ∧ hasTransaction (restarted x) = false := by
  obtain ⟨-, -, -, -, hmissed⟩ := h
  exact ⟨⟨nofun, by simp [restarted], by simp [restarted], Nat.zero_le _, hmissed⟩, rfl⟩

/-- A transaction that stands unabandoned is being sent or awaits its reply (R143, R150). -/
theorem LinkAgrees.sending_or_awaiting {a : LinkController} (h : LinkAgrees a) {t : Transaction} (ht : a.outstanding = some t)
    (hstands : t.abandoned = false) : a.link = .sending ∨ a.link = .awaiting := by
  cases hlink : a.link with
  | sending => exact .inl rfl
  | awaiting => exact .inr rfl
  | free => simp [h.outstanding_eq_none hlink] at ht
  | reserved => simp [(h.transaction t ht).reserved hlink] at hstands

/-- A channel's transaction abandoned and the channel left without it: the transaction stands on with no channel, while SENDING as
before, else on a RESERVED link (R150). -/
theorem LinkAgrees.abandoned {a : LinkController} (h : LinkAgrees a) {t : Transaction} (ht : a.outstanding = some t)
    (hstands : t.abandoned = false) {x : Channel} (hx : ChannelConsistent x) (hnone : hasTransaction x = false) :
    LinkAgrees ((abandonTransaction t.channel a).set t.channel x) := by
  have agrees := h.transaction t ht
  have hlink := h.sending_or_awaiting ht hstands
  obtain ⟨hhas, -⟩ := agrees.channel hstands
  obtain ⟨link, outstanding⟩ := abandonTransaction_of_transaction hhas
  rw [ht, Option.map_some] at outstanding
  refine ⟨fun d => ?channel, by simpa using h.stray, ?free, ?receiver, ?released, by simpa using h.address, fun d hd => ?owner,
    fun u hu => ?transaction⟩
  case channel =>
    rw [LinkController.get_set]
    split
    · exact hx
    · simpa using h.channel d
  case free => obtain hl | hl := hlink <;> simp [link, outstanding, hl]
  case receiver =>
    have receiver := h.receiver
    obtain hl | hl := hlink <;> simpa [link, hl] using receiver
  case released =>
    obtain hl | hl := hlink
    · simp [link, hl]
    · simpa [link, hl] using h.released
  case owner =>
    rw [LinkController.get_set] at hd
    split at hd
    · simp [hnone] at hd
    · next hne => simp [h.no_other ht (.inl hne)] at hd
  case transaction =>
    obtain rfl : { t with abandoned := true } = u := by simpa [outstanding] using hu
    have window := agrees.window
    refine ⟨by simp, agrees.bytes, ?_, ?_, by simp, ?_⟩
    · obtain hl | hl := hlink <;> simp [link, hl, agrees.driven]
    · obtain hl | hl := hlink <;> simp [link, hl]
    · obtain hl | hl := hlink <;> simpa [link, hl] using window

/-- A RESTART abandons the channel's transaction, if it has one, and puts the channel back at its reset values (R150). -/
theorem LinkAgrees.restarted {a : LinkController} (h : LinkAgrees a) (c : ChannelId) :
    LinkAgrees ((abandonTransaction c a).set c (restarted (a.get c))) := by
  obtain ⟨hx, hnone⟩ := restarted_consistent (h.channel c)
  by_cases hhas : hasTransaction (a.get c) = true
  · obtain ⟨t, ht, rfl, hstands⟩ := h.owner c hhas
    exact h.abandoned ht hstands hx hnone
  · rw [abandonTransaction, if_neg hhas]
    exact h.setChannel hx (by simpa [hnone] using hhas) (by simp [hnone])

/-- Another link record changes at most the receiver of a FREE link (R151). -/
theorem LinkAgrees.adopt {a : LinkController} (h : LinkAgrees a) (r : LinkRecord) : LinkAgrees (a.adopt r) := by
  unfold LinkController.adopt
  split
  · next hfree =>
    exact { h with
      receiver := iff_of_false (by simp) (by simp [hfree.1])
      address := by simp
      transaction := fun t ht => { h.transaction t ht with } }
  · exact { h with transaction := fun t ht => { h.transaction t ht with } }

theorem LinkAgrees.cleared {a : LinkController} (h : LinkAgrees a) : LinkAgrees a.cleared := by
  refine ⟨fun c => ?_, Nat.zero_le _, h.free, h.receiver, h.released, h.address, fun c hc => ?_, fun t ht => ?_⟩
  · obtain ⟨hpending, hslot, hhealth, hmisses, -⟩ := h.channel c
    rw [LinkController.cleared_get]
    exact ⟨hpending, hslot, hhealth, hmisses, Nat.zero_le _⟩
  · rw [LinkController.cleared_get] at hc
    exact h.owner c hc
  · have agrees := h.transaction t ht
    refine { agrees with channel := ?_ }
    rw [LinkController.cleared_get]
    exact agrees.channel

end Sys2Proof.Safety

namespace Sys2Proof.Machine

open Sys2Proof.Safety

/-! ### The moves -/

/-- A move of one channel keeps it consistent, and its hold on a transaction and its toggle as they were. -/
theorem ChannelMove.keeps {x y : Channel} (h : ChannelMove x y) (hx : ChannelConsistent x) :
    ChannelConsistent y ∧ hasTransaction y = hasTransaction x ∧ y.toggle = x.toggle := by
  cases h with
  | deposited interval msg => exact ⟨hx.deposited interval msg, deposited_keeps interval msg x⟩
  | stopped hnone => exact ⟨hx.emptied (by decide), hnone.symm, rfl⟩
  | stopping hstate => exact ⟨hx.emptied (by decide), by simp [hasTransaction, hstate], rfl⟩
  | resumed hstate =>
    have hslot := hx.slot_eq_none (by simp [hstate]) (by simp [hstate])
    have hemptied := hx.emptied (state := .idle) (by decide)
    rw [← hslot] at hemptied
    exact ⟨hemptied, by rw [hasTransaction, hasTransaction, hstate]; rfl, rfl⟩

theorem LinkMove.agrees {a b : LinkController} (h : LinkMove a b) (ha : LinkAgrees a) : LinkAgrees b := by
  cases h with
  | reset => exact (linkConsistent_iff _).mp resetLink_consistent
  | channel c hx =>
    obtain ⟨hconsistent, hhas, htoggle⟩ := ChannelMove.keeps hx (ha.channel c)
    exact ha.setChannel hconsistent hhas fun _ => htoggle
  | granted c hfree => exact ha.grant c _ hfree
  | sent _ ht => exact ha.sent ht
  | received rx address hon hrx haddress => exact ha.received hon hrx haddress
  | strayCounted => exact { ha with stray := Nat.min_le_left _ _, transaction := fun t ht => { ha.transaction t ht with } }
  | ended last toggle served hlink ht hmisses hhealth => exact ha.ended last toggle served hlink ht hmisses hhealth
  | unreserved hlink => exact ha.unreserved hlink
  | restarted c => exact ha.restarted c
  | adopted r => exact ha.adopt r
  | cleared => exact ha.cleared

theorem MovesLink.consistent {s t : State} (h : MovesLink s t) (hs : LinkConsistent s.alc) : LinkConsistent t.alc := by
  rw [linkConsistent_iff] at hs ⊢
  exact Relation.ReflTransGen.head_induction_on (motive := fun a _ => LinkAgrees a → LinkAgrees t.alc) h id
    (fun hmove _ ih ha => ih (hmove.agrees ha)) hs

/-- Settles O56: one step makes moves of `LinkMove`, and each of them keeps link, transaction, line and channels in agreement. -/
theorem linkStaysConsistent : Obligations.LinkStaysConsistent := fun _ _ hs h => (step_movesLink h).consistent hs

end Sys2Proof.Machine
end

section
/-! PROOF. The requests to a channel in every channel state: STOP, RESUME and RESTART (R148 to R150). -/

namespace Sys2Proof.Machine

open Sys2Proof.Safety

/-! ### The rows -/

theorem channelOfCode_station (c : ChannelId) : channelOfCode c.station = some c := by
  cases c <;> rfl

theorem channelOf_station {r : Request} {c : ChannelId} (hchannel : r.param1.toNat = c.station) : channelOf r = c := by
  rw [channelOf, hchannel, channelOfCode_station]
  rfl

/-- A CHANNEL request with a station's code and an action of the three passes its checks (R148). -/
theorem channelAction_of_station {r : Request} {c : ChannelId} (hkind : r.kind = 7) (hchannel : r.param1.toNat = c.station)
    (haction : r.param2.toNat ≤ 2) : channelAction r.param2 r = true := by
  have hcheck : channelCheck r = none := by
    rw [channelCheck, hchannel, channelOfCode_station, if_neg (by simp), if_neg (by omega)]
  simp [channelAction, hkind, kindChannel, hcheck]

theorem exec_channelStop {s : State} {r : Request} {c : ChannelId} (htaken : s.rqe.execution = some ⟨r, .taken⟩)
    (hkind : r.kind = 7) (hchannel : r.param1.toNat = c.station) (haction : r.param2 = 0) :
    exec .channelStop s = .next (requestStop r s) :=
  congrArg Host.Outcome.next
    (withTaken_runs (run := requestStop) htaken (haction ▸ channelAction_of_station hkind hchannel (by simp [haction])))

theorem exec_channelResume {s : State} {r : Request} {c : ChannelId} (htaken : s.rqe.execution = some ⟨r, .taken⟩)
    (hkind : r.kind = 7) (hchannel : r.param1.toNat = c.station) (haction : r.param2 = 1) :
    exec .channelResume s = .next (requestResume r s) :=
  congrArg Host.Outcome.next
    (withTaken_runs (run := requestResume) htaken (haction ▸ channelAction_of_station hkind hchannel (by simp [haction])))

theorem exec_channelRestart {s : State} {r : Request} {c : ChannelId} (htaken : s.rqe.execution = some ⟨r, .taken⟩)
    (hkind : r.kind = 7) (hchannel : r.param1.toNat = c.station) (haction : r.param2 = 2) :
    exec .channelRestart s = .next (finish r .ok 0 [] (restartChannel (channelOf r) s)) :=
  congrArg Host.Outcome.next
    (withTaken_runs (run := fun r t => finish r .ok 0 [] (restartChannel (channelOf r) t)) htaken
      (haction ▸ channelAction_of_station hkind hchannel (by simp [haction])))

/-! ### STOP and RESUME -/

/-- Settles O39: each channel state is one row of `requestStop` or `requestResume`, and each answer is `finish_completes` or, for
the STOP that waits, `stayTaken_stays`. -/
theorem channelStopResume : Obligations.ChannelStopResume := by
  constructor
  · intro s r c htaken hm hslot hkind hchannel haction
    refine ⟨_, exec_channelStop htaken hkind hchannel haction, ?_⟩
    unfold requestStop
    rw [channelOf_station hchannel]
    cases (s.alc.get c).state with
    | idle | pending => exact finish_completes (s := stopNow c s) _ _ hm hslot (Nat.zero_le _)
    | outstanding => exact stayTaken_stays r (.stop c) (stopLater c s)
    | stopping | stopped => exact finish_completes _ _ hm hslot (Nat.zero_le _)
  · intro s r c htaken hm hslot hkind hchannel haction
    refine ⟨_, exec_channelResume htaken hkind hchannel haction, ?_⟩
    unfold requestResume
    rw [channelOf_station hchannel]
    cases (s.alc.get c).state with
    | stopped =>
      exact finish_completes (s := setChannel c { s.alc.get c with state := .idle } s) _ _ hm hslot (Nat.zero_le _)
    | idle | pending | outstanding | stopping => exact finish_completes _ _ hm hslot (Nat.zero_le _)

/-! ### RESTART -/

theorem abandonTransaction_eq (c : ChannelId) (a : LinkController) : abandonTransaction c a =
    if (a.get c).state = .outstanding ∨ (a.get c).state = .stopping then
      { a with
        outstanding := a.outstanding.map fun t => { t with abandoned := true }
        link := if a.link = .awaiting then .reserved else a.link }
    else a := by
  simp only [abandonTransaction, hasTransaction_iff]

theorem channelNotice_taken (c : ChannelId) (reason : ChannelReason) (cond : Condition) {s : State} (hm : s.ram.wf = true) :
    NoticeTaken .channel c.station (u32 reason.code) (u32 cond.code) s (channelNotice c reason cond s) :=
  offerNotice_taken _ _ _ _ hm

theorem channelNotice_wf (c : ChannelId) (reason : ChannelReason) (cond : Condition) {s : State} (hm : s.ram.wf = true) :
    (channelNotice c reason cond s).ram.wf = true := wf_storable.channelNotice c reason cond hm

/-- Settles O40: the notice is `channelNotice_taken`, the STOP that waited is answered by `completeLong_completes`, then the
RESTART by `finish_completes`. -/
theorem channelRestart : Obligations.ChannelRestart := by
  rintro s r c x a htaken hm hslot hlong hkind hchannel haction rfl ha
  rw [← abandonTransaction_eq] at ha
  subst ha
  have hnotice := channelNotice_taken c .restart .none
    (s := { s with alc := (abandonTransaction c s.alc).set c (restarted (s.alc.get c)) }) hm
  have hwf := noticeTaken_wf hnotice hm
  refine ⟨_, _, restartChannel c s, channelOf_station hchannel ▸ exec_channelRestart htaken hkind hchannel haction, hnotice, ?_,
    finish_completes _ _ (wf_storable.restartChannel c hm) hslot (Nat.zero_le _)⟩
  simp only [restartChannel]
  split
  · exact completeLong_completes _ _ _ hwf (by simpa using hlong) (Nat.zero_le _)
  · rfl

end Sys2Proof.Machine
end

section
/-! PROOF. The actuator link row by row: the grant and the end of sending (R142, R143), and a deposit that meets a full slot
(R141). -/

namespace Sys2Proof.Machine

open Sys2Proof.Safety

/-! ### The grant and the end of sending -/

theorem arbitrated_idle {a : LinkController} (h : a.link ≠ .free ∨ ∀ c, (a.get c).state ≠ .pending) : arbitrated a = a := by
  unfold arbitrated
  by_cases hfree : a.link = .free
  · have hnone := h.resolve_left (not_not.mpr hfree)
    have hbrake : a.brake.state ≠ .pending := hnone .brake
    have hengine : a.engine.state ≠ .pending := hnone .engine
    have htrailer : a.trailer.state ≠ .pending := hnone .trailer
    rw [if_neg (not_not.mpr hfree), if_neg hbrake, if_neg hengine, if_neg htrailer]
  · rw [if_pos hfree]

/-- A FREE link is granted to the PENDING channel before which no other PENDING one comes (R142). -/
theorem arbitrated_first {a : LinkController} {c : ChannelId} (hfree : a.link = .free) (hpending : (a.get c).state = .pending)
    (hengine : c = .engine → a.brake.state ≠ .pending)
    (htrailer : c = .trailer → a.brake.state ≠ .pending ∧ a.engine.state ≠ .pending) : arbitrated a = granted c a := by
  rw [arbitrated, if_neg (not_not.mpr hfree)]
  cases c with
  | brake => exact if_pos hpending
  | engine => exact (if_neg (hengine rfl)).trans (if_pos hpending)
  | trailer =>
    obtain ⟨hbrake, hengine⟩ := htrailer rfl
    rw [if_neg hbrake, if_neg hengine]
    exact if_pos hpending

theorem exec_linkGrant (s : State) : exec .linkGrant s = .next { s with alc := arbitrated s.alc } := by
  show Host.Outcome.next (consultArbiter s) = _
  rw [consultArbiter, consulted_eq_arbitrated]

/-- Settles O42: a grant is `arbitrated`, which stays idle or grants the first PENDING channel; the end of sending is one row. -/
theorem grantAndSend : Obligations.GrantAndSend := by
  refine ⟨⟨fun s h => ?_, fun s c msg hfree hpending hmsg hengine htrailer => ?_⟩, fun s hlink => ?_, fun s tr hlink htr => ?_⟩
  · rw [exec_linkGrant, arbitrated_idle h]
  · rw [exec_linkGrant, arbitrated_first hfree hpending hengine htrailer, granted, hmsg]
  · show execMessageSent s = _
    unfold execMessageSent
    split
    · next h _ => exact absurd h hlink
    · rfl
  · show execMessageSent s = _
    rw [execMessageSent, hlink, htr]
    rfl

/-! ### Deposits -/

/-- A due deposit that meets a full slot supersedes the message there (R141). -/
theorem deposit_full {c : ChannelId} {old msg : Message} {s : State} (hdue : msg.frame.toNat % s.alc.record.interval c = 0)
    (hstate : (s.alc.get c).state = .pending ∨ (s.alc.get c).state = .outstanding) (hslot : (s.alc.get c).slot = some old) :
    deposit c msg s = supersede c (s.alc.get c) old msg s := by
  rw [deposit, if_pos (by simpa [isDue] using hdue), dueDeposit]
  obtain hstate | hstate := hstate <;> simp only [hstate, hslot]

/-- Settles O48: the deposit is `supersede`, which offers its notice with the served-since-miss flag set. -/
theorem missedService : Obligations.MissedService := by
  intro s c old msg hm hdue hstate hslot
  refine ⟨_, rfl, ?_⟩
  rw [deposit_full hdue hstate hslot, supersede]
  split
  · exact offerNotice_taken (s := setChannel c _ s) _ _ _ _ hm
  · rfl

end Sys2Proof.Machine
end

section
/-! PROOF. The replies on the actuator link: the receiver's events (R136, R144), acknowledgements judged and not judged (R144 to
R147), and the reply timeout (R146, R150). -/

namespace Sys2Proof.Machine

open Sys2Proof.Safety

/-! ### The receiver's events -/

theorem takeCharacter_bad {ch : BitVec 10} (s : State) (hstart : ch.getLsbD 0 = false) (hstop : ch.getLsbD 9 = false) :
    takeCharacter ch s = { s with alc := { s.alc with rx := .idleWait, address := none } } := by
  simp only [takeCharacter, charStart, charStop, hstart, hstop]
  rfl

theorem takeCharacter_good {ch : BitVec 10} (s : State) (hstart : ch.getLsbD 0 = false) (hstop : ch.getLsbD 9 = true) :
    takeCharacter ch s =
      if s.alc.address = none then { s with alc := { s.alc with rx := .hunt, address := some (ch.extractLsb' 1 8) } } else s := by
  simp only [takeCharacter, charStart, charStop, hstart, hstop, Option.isNone_iff_eq_none]
  rfl

/-- Settles O44: each event is its row's condition, and a character is bad or good by its stop bit. -/
theorem linkReceiverEvents : Obligations.LinkReceiverEvents := by
  refine ⟨fun run s hrun => ?_, fun s => ?_, fun s7 s8 s9 s hhigh => ?_, fun idle s hidle => ?_, ?_⟩
  · show execLinkIdleDetected run s = _
    simp only [execLinkIdleDetected, linkIdleSamples, hrun, and_true]
    rfl
  · show execLinkStartEdge true false s = _
    simp only [execLinkStartEdge, and_true]
    rfl
  · show execLinkFalseStart s7 s8 s9 s = _
    simp only [execLinkFalseStart, majorityBit_iff, hhigh, and_true]
    rfl
  · show execAckAddressDiscard idle s = _
    by_cases hhunt : s.alc.rx = .hunt
    · simp [execAckAddressDiscard, addressIdleBits, hidle, hhunt, setLinkRx]
    · simp [execAckAddressDiscard, hhunt]
  · rintro s7 s8 s9 c s rfl hstart
    show execLinkCharacterArrival s7 s8 s9 s = _
    rw [execLinkCharacterArrival]
    cases hstop : (majority s7 s8 s9).getLsbD 9 with
    | false => rw [takeCharacter_bad s hstart hstop, if_pos (rfl : false = false)]
    | true => rw [takeCharacter_good s hstart hstop, if_neg (by decide : ¬true = false)]

/-! ### Acknowledgements not judged -/

/-- Without an address byte held by a receiver in RECEIVE, no acknowledgement arrives (R144). -/
theorem exec_ackArrival_quiet {s : State} (s7 s8 s9 : BitVec 10) (h : s.alc.rx ≠ .receive ∨ s.alc.address = none) :
    exec (.ackArrival s7 s8 s9) s = .next s := by
  have hnone : completedAck (majority s7 s8 s9) s.alc = none := by
    unfold completedAck
    split
    · next hrx haddress => simp [hrx, haddress] at h
    · rfl
  show execAckArrival s7 s8 s9 s = _
  rw [execAckArrival, hnone]

/-- A good check character after a held address byte: the receiver back in HUNT, and the acknowledgement classified (R144). -/
theorem exec_ackArrival_heard {s : State} {s7 s8 s9 : BitVec 10} {address : Byte} (hstart : (majority s7 s8 s9).getLsbD 0 = false)
    (hstop : (majority s7 s8 s9).getLsbD 9 = true) (hrx : s.alc.rx = .receive) (haddress : s.alc.address = some address) :
    exec (.ackArrival s7 s8 s9) s =
      .next (classifyAck address ((majority s7 s8 s9).extractLsb' 1 8) (setLinkRx .hunt none s)) := by
  have hack : completedAck (majority s7 s8 s9) s.alc = some (address, (majority s7 s8 s9).extractLsb' 1 8) := by
    simp only [completedAck, hrx, haddress, charStart, charStop, hstart, hstop, and_self, if_true]
    rfl
  show execAckArrival s7 s8 s9 s = _
  rw [execAckArrival, hack]

theorem classifyAck_free {s : State} (address check : Byte) (hlink : s.alc.link = .free) :
    classifyAck address check s = countStray s := by
  rw [classifyAck, hlink]

theorem classifyAck_reserved {s : State} (address check : Byte) (hlink : s.alc.link = .reserved) :
    classifyAck address check s = freeLink s := by
  rw [classifyAck, hlink]

theorem classifyAck_awaiting {s : State} {t : Transaction} (address check : Byte) (hlink : s.alc.link = .awaiting)
    (ht : s.alc.outstanding = some t) : classifyAck address check s = classifyAwaited t address check s := by
  rw [classifyAck, hlink, ht]

/-- A receiver already in HUNT with nothing held is left so when the link becomes FREE, whatever the rates (R136, R151). -/
theorem freed_hunting {a : LinkController} (hrx : a.rx = .hunt) (haddress : a.address = none) :
    a.freed = { a with link := .free, outstanding := none } := by
  unfold LinkController.freed
  split
  · rfl
  · rw [← hrx, ← haddress]

/-- Settles O45: the acknowledgement is classified by the link state, and a valid one in AWAITING by its station. -/
theorem ackUnjudged : Obligations.AckUnjudged := by
  rintro s7 s8 s9 c s rfl hstart hstop
  refine ⟨exec_ackArrival_quiet s7 s8 s9, fun address hrx haddress => ?_⟩
  rw [exec_ackArrival_heard hstart hstop hrx haddress]
  refine ⟨fun hlink => ?_, fun tr hlink htr hcheck hstation => ?_, fun hlink => ?_⟩
  · rw [classifyAck_free (s := setLinkRx .hunt none s) _ _ hlink]
    rfl
  · rw [classifyAck_awaiting (s := setLinkRx .hunt none s) _ _ hlink htr, classifyAwaited, if_neg (not_not.mpr hcheck),
      if_pos hstation]
    rfl
  · rw [classifyAck_reserved (s := setLinkRx .hunt none s) _ _ hlink, freeLink, freed_hunting rfl rfl]
    rfl

/-! ### The ends of a transaction -/

/-- The link freed of the transaction that stands is as Safety.lean states it (R143, R145). -/
theorem freed_eq_linkFreed {a : LinkController} {t : Transaction} (ht : a.outstanding = some t) : a.freed = linkFreed a t := by
  have hrate : a.receiveRate = t.rate := by rw [LinkController.receiveRate, ht]
  rw [LinkController.freed, linkFreed, hrate]
  split <;> rfl

theorem channelEnded_eq (x : Channel) : channelEnded x = { x with state := endedState x } := by
  unfold channelEnded endedState
  cases x.state <;> rfl

/-- A transaction is removed as Safety.lean states it (R145 step 6, R148). -/
theorem removeTransaction_removed {s : State} {t : Transaction} (c : ChannelId) (cond : Condition) (hm : s.ram.wf = true)
    (hlong : ∀ e ∈ s.rqe.long, e.slot < 16) (ht : s.alc.outstanding = some t) :
    TransactionRemoved c t cond s (removeTransaction c cond s) := by
  have hfreed : freeLink (setChannel c { s.alc.get c with state := endedState (s.alc.get c) } s) =
      { s with alc := linkFreed (s.alc.set c (channelEnded (s.alc.get c))) t } := by
    rw [freeLink, setChannel_alc, ← channelEnded_eq, freed_eq_linkFreed (by simpa using ht)]
    rfl
  simp only [TransactionRemoved, removeTransaction, hfreed]
  cases (s.alc.get c).state with
  | stopping => exact completeLong_completes _ _ _ hm hlong (Nat.zero_le _)
  | idle | pending | outstanding | stopped => rfl

/-- A miss before its transaction is removed (R146 steps 1 to 4). -/
def recordMiss (c : ChannelId) (cond : Condition) (s : State) : State :=
  let x := s.alc.get c
  let health := healthAfterMiss s.alc.record.missLimit (satInc 255 x.misses) x.health
  let recorded := setChannel c { x with last := cond, misses := satInc 255 x.misses, health := health } s
  if health = .lost ∧ x.health ≠ .lost then raiseSummary channelLostBit (channelNotice c .lost cond recorded) else recorded

theorem endMiss_eq (c : ChannelId) (cond : Condition) (s : State) :
    endMiss c cond s = removeTransaction c cond (recordMiss c cond s) := rfl

theorem recordMiss_keeps (c : ChannelId) (cond : Condition) {s : State} (hm : s.ram.wf = true) :
    (recordMiss c cond s).ram.wf = true ∧ (recordMiss c cond s).rqe = s.rqe ∧
      (recordMiss c cond s).alc.outstanding = s.alc.outstanding := by
  simp only [recordMiss]
  split
  · exact ⟨channelNotice_wf (s := setChannel c _ s) c .lost cond hm, by simp, by simp⟩
  · exact ⟨hm, by simp, by simp⟩

/-- A miss is as Safety.lean states it (R146): its health LOST or MISSING by the limit, a notice on a move to LOST. -/
theorem endMiss_ends {s : State} {t : Transaction} (c : ChannelId) (cond : Condition) (hm : s.ram.wf = true)
    (hlong : ∀ e ∈ s.rqe.long, e.slot < 16) (ht : s.alc.outstanding = some t) : EndsMissed c t cond s (endMiss c cond s) := by
  obtain ⟨hwf, hrqe, hout⟩ := recordMiss_keeps c cond hm
  refine ⟨recordMiss c cond s, ?_, removeTransaction_removed c cond hwf (hrqe ▸ hlong) (hout.trans ht)⟩
  by_cases hlimit : s.alc.record.missLimit ≤ min 255 ((s.alc.get c).misses + 1)
  · have hhealth : healthAfterMiss s.alc.record.missLimit (satInc 255 (s.alc.get c).misses) (s.alc.get c).health = .lost :=
      if_pos hlimit
    rw [if_pos hlimit]
    by_cases hlost : (s.alc.get c).health = .lost
    · rw [if_pos hlost]
      simp only [recordMiss, hhealth]
      rw [if_neg (fun h => h.2 hlost)]
      rfl
    · rw [if_neg hlost]
      simp only [recordMiss, hhealth]
      rw [if_pos ⟨trivial, hlost⟩]
      exact ⟨_, channelNotice_taken (s := setChannel c _ s) c .lost cond hm, rfl⟩
  · have hhealth : healthAfterMiss s.alc.record.missLimit (satInc 255 (s.alc.get c).misses) (s.alc.get c).health =
        if (s.alc.get c).health = .lost then .lost else .missing := if_neg hlimit
    have hquiet : ¬((if (s.alc.get c).health = .lost then Health.lost else .missing) = .lost ∧ (s.alc.get c).health ≠ .lost) := by
      split_ifs with hlost <;> simp [hlost]
    rw [if_neg hlimit]
    simp only [recordMiss, hhealth, if_neg hquiet]
    rfl

/-- A good ending recorded in its channel (R145 steps 1 to 3), before its notices. -/
def recordGood (c : ChannelId) (cond : Condition) (s : State) : State :=
  setChannel c { s.alc.get c with last := cond, toggle := !(s.alc.get c).toggle, misses := 0, served := true, health := .ok } s

/-- The notices of a good ending: RECOVERED from the health before, and STATION_FAULT by the condition (R145 steps 4 and 5). -/
def goodNotices (c : ChannelId) (cond : Condition) (before : Health) (s : State) : State :=
  let recovered := if before = .ok then s else channelNotice c .recovered cond s
  if cond = .stationFault then channelNotice c .stationFault cond recovered else recovered

theorem endGood_eq (c : ChannelId) (cond : Condition) (s : State) : endGood c cond s =
    removeTransaction c cond (goodNotices c cond (s.alc.get c).health (recordGood c cond s)) := rfl

theorem goodNotices_taken (c : ChannelId) (cond : Condition) (before : Health) {s : State} (hm : s.ram.wf = true) :
    (∃ v, (if before = .ok then v = s else NoticeTaken .channel c.station 2 (u32 cond.code) s v) ∧
      if cond = .stationFault then NoticeTaken .channel c.station 3 3 v (goodNotices c cond before s)
      else goodNotices c cond before s = v) ∧
    (goodNotices c cond before s).ram.wf = true ∧ (goodNotices c cond before s).rqe = s.rqe ∧
      (goodNotices c cond before s).alc = s.alc := by
  have hrecovered : (if before = .ok then s else channelNotice c .recovered cond s).ram.wf = true := by
    split
    · exact hm
    · exact channelNotice_wf c .recovered cond hm
  refine ⟨⟨if before = .ok then s else channelNotice c .recovered cond s, ?_, ?_⟩, ?_, ?_, ?_⟩
  · split
    · rfl
    · exact channelNotice_taken c .recovered cond hm
  · simp only [goodNotices]
    split
    · next hfault =>
      subst hfault
      exact channelNotice_taken c .stationFault .stationFault hrecovered
    · rfl
  · simp only [goodNotices]
    split
    · exact channelNotice_wf c .stationFault cond hrecovered
    · exact hrecovered
  all_goals
    simp only [goodNotices]
    split <;> split <;> simp

/-- A good ending is as Safety.lean states it (R145). -/
theorem endGood_ends {s : State} {t : Transaction} (c : ChannelId) (cond : Condition) (hm : s.ram.wf = true)
    (hlong : ∀ e ∈ s.rqe.long, e.slot < 16) (ht : s.alc.outstanding = some t) : EndsGood c t cond s (endGood c cond s) := by
  obtain ⟨⟨v, hrecovered, hfault⟩, hwf, hrqe, halc⟩ :=
    goodNotices_taken c cond (s.alc.get c).health (s := recordGood c cond s) hm
  have hout : (recordGood c cond s).alc.outstanding = some t := by simpa [recordGood] using ht
  exact ⟨recordGood c cond s, v, _, rfl, hrecovered, hfault,
    removeTransaction_removed c cond hwf (hrqe ▸ hlong) (halc ▸ hout)⟩

/-! ### Acknowledgements judged, and the reply timeout -/

/-- Settles O46: the acknowledgement is `classifyAwaited`, whose ends are `endMiss_ends` and `endGood_ends`. -/
theorem ackJudged : Obligations.AckJudged := by
  rintro s7 s8 s9 c s u tr address rfl hstart hstop hrx haddress hlink htr hm hlong rfl
  rw [exec_ackArrival_heard hstart hstop hrx haddress, classifyAck_awaiting (s := setLinkRx .hunt none s) _ _ hlink htr]
  refine ⟨fun hcheck => ⟨_, rfl, ?_⟩, fun hcheck hstation => ⟨_, rfl, ?_⟩⟩
  · rw [classifyAwaited, if_pos hcheck]
    exact endMiss_ends (s := setLinkRx .hunt none s) _ _ hm hlong htr
  · rw [classifyAwaited, if_neg (not_not.mpr hcheck), if_neg (not_not.mpr hstation)]
    by_cases htoggle : address.getLsbD 2 = tr.toggle
    · rw [if_pos htoggle, if_neg (not_not.mpr htoggle)]
      exact endGood_ends (s := setLinkRx .hunt none s) _ _ hm hlong htr
    · rw [if_neg htoggle, if_pos htoggle]
      exact endMiss_ends (s := setLinkRx .hunt none s) _ _ hm hlong htr

/-- Settles O47: in AWAITING the expiry is `endMiss`, on a RESERVED link `freeLink`, else nothing. -/
theorem replyTimeout : Obligations.ReplyTimeout := by
  refine ⟨fun s tr hlink htr hm hlong => ⟨endMiss tr.channel .timeout s, ?_, endMiss_ends _ _ hm hlong htr⟩,
    fun s tr hlink htr => ?_, fun s hlink => ?_⟩
  · show execReplyTimeout s = _
    rw [execReplyTimeout, hlink, htr]
  · show execReplyTimeout s = _
    rw [execReplyTimeout, hlink, freeLink, freed_eq_linkFreed htr]
  · show execReplyTimeout s = _
    rw [execReplyTimeout]
    obtain hlink | hlink := hlink <;> rw [hlink]

end Sys2Proof.Machine
end

section
/-! PROOF. The Exchange Port: the canonical form of the RAM and ALERT through every step, and who changes the enables (R155, R158). -/

namespace Sys2Proof.Machine

open Sys2Proof.Safety

/-! ### RAM and ALERT -/

/-- What storing words and setting the port keep, every step keeps, if power-on reset gives it. -/
theorem Storable.step {P : Memory → ExchangePort → Prop} (I : Storable P) (hreset : Holds P State.reset) {s t : State}
    (hs : Holds P s) (h : step s = .next t) : Holds P t := by
  unfold Machine.step at h
  split at h
  · injection h with h
    exact h ▸ hs
  · next c rest _ => exact I.exec hreset (s := s.withPending rest) h hs

/-- Settles O50: the canonical form is kept by every store (`wf_storable`). -/
theorem memoryStaysCanonical : Obligations.MemoryStaysCanonical := fun _ _ => wf_storable.step resetIsSafe.memory

/-- ALERT as R158 has it is kept by every store and by every setting of the port. -/
theorem alert_storable : Storable fun _ p => p.alert = decide (p.summary &&& p.enable ≠ 0) :=
  ⟨fun _ _ h => h, fun _ _ _ => rfl⟩

/-! ### The enables (R158): a block that sets a SUMMARY bit leaves them -/

@[simp] theorem raiseSummary_enable (bit : BitVec 7) (s : State) : (raiseSummary bit s).xp.enable = s.xp.enable := rfl

@[simp] theorem offerNotice_enable (kind : NoticeKind) (subject : Nat) (first second : Word) (s : State) :
    (offerNotice kind subject first second s).xp.enable = s.xp.enable := by
  simp only [offerNotice, noticeOutcome, writeNotice]
  repeat' split
  all_goals rfl

@[simp] theorem finishSlot_enable (slot : Nat) (kind : Byte) (tag : Half) (code : ResultCode) (detail : Nat)
    (payload : List Word) (s : State) : (finishSlot slot kind tag code detail payload s).xp.enable = s.xp.enable := rfl

@[simp] theorem completeLong_enable (owner : LongOwner) (code : ResultCode) (detail : Nat) (payload : List Word) (s : State) :
    (completeLong owner code detail payload s).xp.enable = s.xp.enable := by
  unfold completeLong
  split <;> simp

@[simp] theorem finish_enable (r : Request) (code : ResultCode) (detail : Nat) (payload : List Word) (s : State) :
    (finish r code detail payload s).xp.enable = s.xp.enable := rfl

@[simp] theorem reportLane_enable (l : LaneId) (before after : LaneState) (s : State) :
    (reportLane l before after s).xp.enable = s.xp.enable := by
  unfold reportLane
  repeat' split
  all_goals simp

@[simp] theorem updateLane_enable (l : LaneId) (x : Lane) (s : State) : (updateLane l x s).xp.enable = s.xp.enable := by
  simp [updateLane]

@[simp] theorem ageLanes_enable (s : State) : (ageLanes s).xp.enable = s.xp.enable := by
  simp [ageLanes, allLanes]

@[simp] theorem adoptLanes_enable (s : State) : (adoptLanes s).xp.enable = s.xp.enable := by
  simp [adoptLanes, allLanes]

@[simp] theorem deposit_enable (c : ChannelId) (msg : Message) (s : State) : (deposit c msg s).xp.enable = s.xp.enable := by
  simp only [deposit, dueDeposit, supersede]
  repeat' split
  all_goals simp

@[simp] theorem removeTransaction_enable (c : ChannelId) (cond : Condition) (s : State) :
    (removeTransaction c cond s).xp.enable = s.xp.enable := by
  simp only [removeTransaction]
  split <;> simp

@[simp] theorem channelNotice_enable (c : ChannelId) (reason : ChannelReason) (cond : Condition) (s : State) :
    (channelNotice c reason cond s).xp.enable = s.xp.enable := offerNotice_enable ..

@[simp] theorem endGood_enable (c : ChannelId) (cond : Condition) (s : State) : (endGood c cond s).xp.enable = s.xp.enable := by
  simp only [endGood]
  split <;> split <;> simp

@[simp] theorem endMiss_enable (c : ChannelId) (cond : Condition) (s : State) : (endMiss c cond s).xp.enable = s.xp.enable := by
  simp only [endMiss]
  split <;> simp

@[simp] theorem classifyAck_enable (address check : Byte) (s : State) :
    (classifyAck address check s).xp.enable = s.xp.enable := by
  unfold classifyAck classifyAwaited
  repeat' split
  all_goals simp

@[simp] theorem restartChannel_enable (c : ChannelId) (s : State) : (restartChannel c s).xp.enable = s.xp.enable := by
  simp only [restartChannel]
  split <;> simp

@[simp] theorem changeState_enable (new : OpState) (reason : StateReason) (s : State) :
    (changeState new reason s).xp.enable = s.xp.enable := by
  simp only [changeState]
  split <;> simp

@[simp] theorem failCalibration_enable (why : CalFailure) (target : OpState) (reason : StateReason) (s : State) :
    (failCalibration why target reason s).xp.enable = s.xp.enable := by
  simp [failCalibration, calFailedNotice]

@[simp] theorem calibrationFrame_enable (p : Snapshot) (s : State) : (calibrationFrame p s).xp.enable = s.xp.enable := by
  simp only [calibrationFrame, succeedCalibration]
  repeat' split
  all_goals simp

@[simp] theorem takeReport_enable (c : Computation) (r : Results) (s : State) : (takeReport c r s).xp.enable = s.xp.enable := by
  simp only [takeReport, recoverFromLimp]
  repeat' split
  all_goals simp

@[simp] theorem makeDeposits_enable (c : Computation) (r : Results) (s : State) :
    (makeDeposits c r s).xp.enable = s.xp.enable := by
  unfold makeDeposits
  split <;> simp [depositAll, consultArbiter]

@[simp] theorem verdictNotice_enable (old new : Byte) (k : Nat) (s : State) :
    (verdictNotice old new k s).xp.enable = s.xp.enable := by
  unfold verdictNotice
  split <;> simp

@[simp] theorem unitNotices_enable (c : Computation) (r : Results) (s : State) :
    (unitNotices c r s).xp.enable = s.xp.enable := by
  simp only [unitNotices, verdictNotices, List.range, List.range.loop, List.foldl_cons, List.foldl_nil, verdictNotice_enable,
    gradeNotice, escalationNotice]
  repeat' split
  all_goals simp

@[simp] theorem recordCapture_enable (c : Computation) (r : Results) (s : State) :
    (recordCapture c r s).xp.enable = s.xp.enable := by
  simp only [recordCapture]
  repeat' split
  all_goals simp

@[simp] theorem completeInFlight_enable (s : State) : (completeInFlight s).xp.enable = s.xp.enable := by
  have published (c : Computation) (r : Results) (t : State) : (publish c r t).xp.enable = t.xp.enable := rfl
  unfold completeInFlight
  split
  · simp [completeComputation, throughReport, published]
  · rfl

@[simp] theorem startFrame_enable (s : State) : (startFrame s).xp.enable = s.xp.enable := by
  have begun (c : Computation) (t : State) : (beginComputation c t).xp = t.xp := rfl
  unfold startFrame
  split
  · rw [begun, ageLanes_enable]
  · rfl

@[simp] theorem goDormant_enable (s : State) : (goDormant s).xp.enable = s.xp.enable := by
  unfold goDormant
  split <;> simp

@[simp] theorem goStandby_enable (r : Request) (s : State) : (goStandby r s).xp.enable = s.xp.enable := by
  unfold goStandby
  repeat' split
  all_goals simp

@[simp] theorem goActive_enable (r : Request) (s : State) : (goActive r s).xp.enable = s.xp.enable := by
  unfold goActive
  repeat' split
  all_goals simp

@[simp] theorem goCalibrate_enable (r : Request) (s : State) : (goCalibrate r s).xp.enable = s.xp.enable := by
  unfold goCalibrate
  repeat' split
  all_goals simp [acceptCalibration, startCalibration]

@[simp] theorem abandonCalibration_enable (r : Request) (s : State) : (abandonCalibration r s).xp.enable = s.xp.enable := by
  unfold abandonCalibration
  split <;> simp

@[simp] theorem requestCapture_enable (r : Request) (s : State) : (requestCapture r s).xp.enable = s.xp.enable := by
  unfold requestCapture
  repeat' split
  all_goals simp

@[simp] theorem abandonRunningCapture_enable (r : Request) (s : State) :
    (abandonRunningCapture r s).xp.enable = s.xp.enable := by
  unfold abandonRunningCapture
  split <;> simp

@[simp] theorem requestStop_enable (r : Request) (s : State) : (requestStop r s).xp.enable = s.xp.enable := by
  unfold requestStop
  split <;> simp

@[simp] theorem requestResume_enable (r : Request) (s : State) : (requestResume r s).xp.enable = s.xp.enable := by
  unfold requestResume
  split <;> simp

@[simp] theorem applyAdopt_enable (r : Request) (s : State) : (applyAdopt r s).xp.enable = s.xp.enable := by
  rw [applyAdopt, finish_enable, adoptNamed, ifNamed_keeps (·.xp.enable) (by simp), ifNamed_keeps (·.xp.enable) (by simp),
    ifNamed_keeps (·.xp.enable) (by simp), ifNamed_keeps (·.xp.enable) (by simp)]

@[simp] theorem applyClear_enable (r : Request) (s : State) : (applyClear r s).xp.enable = s.xp.enable := by
  simp [applyClear]

@[simp] theorem applyLoad_enable (r : Request) (s : State) : (applyLoad r s).xp.enable = s.xp.enable := by
  simp only [applyLoad]
  split <;> simp

@[simp] theorem gapRequest_enable {apply : Request → State → State} (h : ∀ r s, (apply r s).xp.enable = s.xp.enable)
    (r : Request) (s : State) : (gapRequest apply r s).xp.enable = s.xp.enable :=
  gapRequest_keeps (P := fun t => t.xp.enable = s.xp.enable) (h r s) rfl

@[simp] theorem executeAdopt_enable (r : Request) (s : State) : (executeAdopt r s).xp.enable = s.xp.enable := by
  unfold executeAdopt
  split <;> simp

@[simp] theorem executeClear_enable (r : Request) (s : State) : (executeClear r s).xp.enable = s.xp.enable := by
  unfold executeClear
  split <;> simp

@[simp] theorem executeLoad_enable (r : Request) (s : State) : (executeLoad r s).xp.enable = s.xp.enable := by
  unfold executeLoad
  split <;> simp

@[simp] theorem applyWaiting_enable (r : Request) (s : State) : (applyWaiting r s).xp.enable = s.xp.enable := by
  unfold applyWaiting
  repeat' split
  all_goals simp

theorem withTaken_enable {belongs : Request → Bool} {run : Request → State → State} {s : State}
    (h : ∀ r, (run r s).xp.enable = s.xp.enable) : (withTaken belongs run s).xp.enable = s.xp.enable :=
  withTaken_keeps (P := fun t => t.xp.enable = s.xp.enable) rfl h

/-- The commands that set the enables: a reset, or the host's write of them (R158). -/
def SetsEnables (c : Instr) (t : State) : Prop :=
  c = .powerOnReset ∨ (∃ v : Word, v.getLsbD 0 = true ∧ c = .softReset v) ∨
    ∃ v : Word, c = .summaryEnableWrite v ∧ t.xp.enable = v.setWidth 7

theorem summaryBits_eq (v : Word) : summaryBits v = v.setWidth 7 := BitVec.setWidth_eq_extractLsb' (by decide) |>.symm

/-- Every other command leaves the enables as they are. -/
theorem exec_enable {c : Instr} {s t : State} (h : exec c s = .next t) : t.xp.enable = s.xp.enable ∨ SetsEnables c t := by
  cases c <;> (injection h with h; subst h)
  case powerOnReset => exact .inr (.inl rfl)
  case softReset v =>
    split
    · next hbit => exact .inr (.inr (.inl ⟨v, hbit, rfl⟩))
    · exact .inl rfl
  case summaryEnableWrite v => exact .inr (.inr (.inr ⟨v, rfl, summaryBits_eq v⟩))
  case refusedKind | refusedRange | adoptMode | adoptLoad | adoptLane | adoptLink | clearSticky | clearLane | clearChannelCounts
      | clearNoticeHeader | tableLoad | tableDump | modeGoDormant | modeGoStandby | modeGoActive | modeGoCalibrate
      | abandonTransition | abandonCapture | channelStop | channelResume | channelRestart | capture =>
    exact .inl (withTaken_enable fun r => by simp)
  case attentionArrival | summaryWrite | registerWriteIgnored | hostRamWrite | frameStart | computationComplete | linkGrant =>
    exact .inl (by simp [portWith, consultArbiter])
  all_goals split <;> exact .inl (by simp)

theorem exec_reset_port {c : Instr} {s t : State} (hc : c = .powerOnReset ∨ ∃ v : Word, v.getLsbD 0 = true ∧ c = .softReset v)
    (h : exec c s = .next t) : t.xp = resetPort := by
  obtain rfl | ⟨v, hv, rfl⟩ := hc
  · injection h with h
    rw [← h]
    rfl
  · rw [exec_softReset hv] at h
    injection h with h
    rw [← h]
    rfl

/-- Settles O51: ALERT by `alert_storable`; the enables by `exec_enable`, and the two resets by the port they leave. -/
theorem alertFollowsSummary : Obligations.AlertFollowsSummary := by
  refine ⟨resetIsSafe.alert, rfl, rfl, fun s t => alert_storable.step resetIsSafe.alert, fun s t h => ?_, fun s t h hreset => ?_⟩
  · unfold step at h
    split at h
    · injection h with h
      exact .inl (h ▸ rfl)
    · next c rest hpending => exact (exec_enable h).imp_right fun hc => ⟨c, rest, hpending, hc⟩
  · have hport : t.xp = resetPort := by
      obtain ⟨rest, hpending | ⟨v, hv, hpending⟩⟩ := hreset <;> rw [step, hpending] at h
      · exact exec_reset_port (.inl rfl) h
      · exact exec_reset_port (.inr ⟨v, hv, rfl⟩) h
    rw [hport]
    exact ⟨rfl, rfl, rfl⟩

end Sys2Proof.Machine
end

section
/-! PROOF. What one command can do to the Request Engine: one inversion lemma, `exec_movesEngine`, and by it the engine's agreement
with itself through every step (R161, R163). -/

namespace Sys2Proof.Machine

open Sys2Proof.Safety

/-! ### The moves -/

/-- One move of the Request Engine. A command makes some of them one after another. -/
inductive EngineMove (e : RequestEngine) : RequestEngine → Prop
  | reset : EngineMove e resetEngine
  | answered (owner : LongOwner) : EngineMove e { e with long := e.long.filter fun x => x.owner != owner }
  | joined (owner : LongOwner) {r : Request} {p : Phase} : e.execution = some ⟨r, p⟩ →
    EngineMove e { e with long := e.long ++ [⟨r.slot, r.kind, r.tag, owner⟩] }
  | advanced {r : Request} {p : Phase} (q : Phase) : e.execution = some ⟨r, p⟩ → EngineMove e { e with execution := some ⟨r, q⟩ }
  | released (m : Memory) : EngineMove e (scanned m { e with execution := none }).2
  | rescanSet : e.scan.isSome = true → EngineMove e { e with rescan := true }
  | scanBegun (m : Memory) : e.scan = none → e.execution = none → EngineMove e (scanned m { e with scan := some ⟨e.cursor, 0⟩ }).2
  /-- A request in execution with no scan, which an `EngineConsistent` engine never has. -/
  | scanHeld : e.scan = none → e.execution ≠ none → EngineMove e { e with scan := some ⟨e.cursor, 0⟩ }

/-- The Request Engine makes moves of `EngineMove`, any number of them. -/
def MovesEngine (s t : State) : Prop := Relation.ReflTransGen EngineMove s.rqe t.rqe

theorem MovesEngine.ofKept {s t : State} (h : t.rqe = s.rqe) : MovesEngine s t := by
  rw [MovesEngine, h]

theorem MovesEngine.refl (s : State) : MovesEngine s s := .ofKept rfl

theorem MovesEngine.ofMove {s t : State} (h : EngineMove s.rqe t.rqe) : MovesEngine s t := .single h

theorem MovesEngine.trans {s t u : State} (hst : MovesEngine s t) (htu : MovesEngine t u) : MovesEngine s u :=
  Relation.ReflTransGen.trans hst htu

/-- What precedes a move and keeps the Request Engine is part of it. -/
theorem MovesEngine.after {s t u : State} (h : MovesEngine t u) (hrqe : t.rqe = s.rqe) : MovesEngine s u := by
  rwa [MovesEngine, ← hrqe]

/-- What follows a move and keeps the Request Engine is part of it. -/
theorem MovesEngine.congr {s t u : State} (h : MovesEngine s t) (hrqe : u.rqe = t.rqe) : MovesEngine s u := by
  rwa [MovesEngine, hrqe]

/-! ### Completions -/

theorem completeLong_movesEngine (owner : LongOwner) (code : ResultCode) (detail : Nat) (payload : List Word) (s : State) :
    MovesEngine s (completeLong owner code detail payload s) := by
  unfold completeLong
  split
  · exact .refl s
  · exact .ofMove (.answered owner)

theorem releaseEngine_movesEngine (s : State) : MovesEngine s (releaseEngine s) := by
  rw [releaseEngine_eq]
  exact .ofMove (.released s.ram)

theorem finish_movesEngine {r : Request} {code : ResultCode} {detail : Nat} {payload : List Word} {s t : State}
    (h : MovesEngine s t) : MovesEngine s (finish r code detail payload t) :=
  h.trans (releaseEngine_movesEngine (finishSlot r.slot r.kind r.tag code detail payload t))

theorem stayTaken_movesEngine {r : Request} (owner : LongOwner) {s : State} (h : s.rqe.execution = some ⟨r, .taken⟩) :
    MovesEngine s (stayTaken r owner s) :=
  .trans (t := { s with rqe := { s.rqe with long := s.rqe.long ++ [⟨r.slot, r.kind, r.tag, owner⟩] } })
    (.ofMove (.joined owner h)) (releaseEngine_movesEngine _)

/-! ### The actuator link -/

theorem removeTransaction_movesEngine (c : ChannelId) (cond : Condition) (s : State) :
    MovesEngine s (removeTransaction c cond s) := by
  simp only [removeTransaction]
  split
  · exact (completeLong_movesEngine _ _ _ _ _).after (by simp)
  · exact .ofKept (by simp)

theorem endGood_movesEngine (c : ChannelId) (cond : Condition) (s : State) : MovesEngine s (endGood c cond s) := by
  refine (removeTransaction_movesEngine c cond _).after ?_
  split <;> split <;> simp

theorem endMiss_movesEngine (c : ChannelId) (cond : Condition) (s : State) : MovesEngine s (endMiss c cond s) := by
  refine (removeTransaction_movesEngine c cond _).after ?_
  split <;> simp

theorem classifyAck_movesEngine (address check : Byte) (s : State) : MovesEngine s (classifyAck address check s) := by
  unfold classifyAck
  split
  · exact .ofKept (by simp)
  · exact .ofKept (by simp)
  · unfold classifyAwaited
    split
    · exact endMiss_movesEngine _ _ s
    split
    · exact .ofKept (by simp)
    split
    · exact endMiss_movesEngine _ _ s
    · exact endGood_movesEngine _ _ s
  · exact .refl s
  · exact .refl s

theorem restartChannel_movesEngine (c : ChannelId) (s : State) : MovesEngine s (restartChannel c s) := by
  simp only [restartChannel]
  split
  · exact (completeLong_movesEngine _ _ _ _ _).after (by simp)
  · exact .ofKept (by simp)

theorem requestStop_movesEngine {r : Request} {s : State} (h : s.rqe.execution = some ⟨r, .taken⟩) :
    MovesEngine s (requestStop r s) := by
  unfold requestStop
  split
  · exact finish_movesEngine (.ofKept (by simp))
  · exact finish_movesEngine (.ofKept (by simp))
  · exact (stayTaken_movesEngine (s := stopLater (channelOf r) s) _ h).after (by simp)
  · exact finish_movesEngine (.refl s)
  · exact finish_movesEngine (.refl s)

theorem requestResume_movesEngine (r : Request) (s : State) : MovesEngine s (requestResume r s) := by
  unfold requestResume
  split
  · exact finish_movesEngine (.ofKept (by simp))
  · exact finish_movesEngine (.refl s)

/-! ### The State Controller -/

theorem failCalibration_movesEngine (why : CalFailure) (target : OpState) (reason : StateReason) (s : State) :
    MovesEngine s (failCalibration why target reason s) :=
  (completeLong_movesEngine .calibration .calFailed why.code [u32 s.sc.calCount] s).congr (by simp [failCalibration])

theorem succeedCalibration_movesEngine (avg : CalSums) (s : State) : MovesEngine s (succeedCalibration avg s) := by
  have answered := completeLong_movesEngine .calibration .ok 0
    [pack16 (toS16 avg.roll) (toS16 avg.yaw), pack16 (toS16 (initialLean avg.ay avg.az)) 0] { s with fcu := s.fcu.calibrated avg }
  exact MovesEngine.congr (s := s) answered (by simp [succeedCalibration])

theorem calibrationFrame_movesEngine (p : Snapshot) (s : State) : MovesEngine s (calibrationFrame p s) := by
  simp only [calibrationFrame]
  split
  · exact failCalibration_movesEngine _ _ _ s
  split
  · exact failCalibration_movesEngine _ _ _ s
  split
  · exact .ofKept rfl
  split
  · exact (failCalibration_movesEngine _ _ _ _).after rfl
  · exact (succeedCalibration_movesEngine _ _).after rfl

theorem takeReport_movesEngine (c : Computation) (r : Results) (s : State) : MovesEngine s (takeReport c r s) := by
  rw [takeReport_eq]
  split
  · exact .ofKept rfl
  · exact .ofKept rfl
  · split
    · exact (calibrationFrame_movesEngine _ _).after rfl
    · exact .ofKept rfl
  · split
    · exact .ofKept (by simp [storeReport])
    · exact .ofKept rfl
  · simp only [recoverFromLimp]
    split
    · exact .ofKept (by simp [storeReport])
    · exact .ofKept rfl

theorem goDormant_movesEngine (s : State) : MovesEngine s (goDormant s) := by
  unfold goDormant
  split
  case h_2 => exact failCalibration_movesEngine _ _ _ s
  all_goals exact .ofKept (by simp)

theorem goStandby_movesEngine (r : Request) (s : State) : MovesEngine s (goStandby r s) := by
  unfold goStandby
  repeat' split
  all_goals exact finish_movesEngine (.ofKept (by simp))

theorem goActive_movesEngine (r : Request) (s : State) : MovesEngine s (goActive r s) := by
  unfold goActive
  repeat' split
  all_goals exact finish_movesEngine (.ofKept (by simp))

theorem acceptCalibration_movesEngine {r : Request} {s : State} (h : s.rqe.execution = some ⟨r, .taken⟩) :
    MovesEngine s (acceptCalibration r s) :=
  (stayTaken_movesEngine .calibration (by simpa using h)).after (by simp)

theorem goCalibrate_movesEngine {r : Request} {s : State} (h : s.rqe.execution = some ⟨r, .taken⟩) :
    MovesEngine s (goCalibrate r s) := by
  have refused (code : ResultCode) (detail : Nat) : MovesEngine s (finish r code detail [] s) := finish_movesEngine (.refl s)
  unfold goCalibrate
  split
  · exact refused _ _
  split
  · exact acceptCalibration_movesEngine h
  · exact refused _ _
  · exact refused _ _
  all_goals
    split
    · exact refused _ _
    · exact acceptCalibration_movesEngine h

theorem abandonCalibration_movesEngine (r : Request) (s : State) : MovesEngine s (abandonCalibration r s) := by
  unfold abandonCalibration
  split
  · exact finish_movesEngine (failCalibration_movesEngine _ _ _ s)
  · exact finish_movesEngine (.refl s)

/-! ### The frame cycle -/

theorem recordCapture_movesEngine (c : Computation) (r : Results) (s : State) : MovesEngine s (recordCapture c r s) := by
  simp only [recordCapture]
  split
  · exact .refl s
  split
  · exact .ofKept rfl
  split
  · exact .ofKept rfl
  · exact (completeLong_movesEngine _ _ _ _ _).after rfl

theorem completeInFlight_movesEngine (s : State) : MovesEngine s (completeInFlight s) := by
  unfold completeInFlight
  split
  · next c _ =>
    have reported : MovesEngine s (throughReport c (compute c s.table) s) := (takeReport_movesEngine _ _ _).after (by simp)
    exact (reported.trans ((recordCapture_movesEngine _ _ (publish _ _ _)).after (by simp))).congr rfl
  · exact .refl s

theorem requestCapture_movesEngine {r : Request} {s : State} (h : s.rqe.execution = some ⟨r, .taken⟩) :
    MovesEngine s (requestCapture r s) := by
  unfold requestCapture
  split
  · exact finish_movesEngine (.refl s)
  split
  · exact finish_movesEngine (.refl s)
  · exact (stayTaken_movesEngine .capture (by exact h)).after rfl

theorem abandonRunningCapture_movesEngine (r : Request) (s : State) : MovesEngine s (abandonRunningCapture r s) := by
  unfold abandonRunningCapture
  split
  · exact finish_movesEngine (.refl s)
  · exact finish_movesEngine ((completeLong_movesEngine _ _ _ _ _).after rfl)

/-! ### Records, tables and arrivals -/

theorem setPhase_movesEngine {r : Request} {p : Phase} (q : Phase) {s : State} (h : s.rqe.execution = some ⟨r, p⟩) :
    MovesEngine s (setPhase r q s) := .ofMove (.advanced q h)

theorem gapRequest_movesEngine {apply : Request → State → State} {r : Request} {s : State}
    (h : s.rqe.execution = some ⟨r, .taken⟩) (happly : MovesEngine s (apply r s)) : MovesEngine s (gapRequest apply r s) :=
  gapRequest_keeps happly (setPhase_movesEngine _ h)

theorem applyAdopt_movesEngine (r : Request) (s : State) : MovesEngine s (applyAdopt r s) :=
  finish_movesEngine (.ofKept (by simp))

theorem applyClear_movesEngine (r : Request) (s : State) : MovesEngine s (applyClear r s) :=
  finish_movesEngine (.ofKept (by simp))

theorem applyLoad_movesEngine (r : Request) (s : State) : MovesEngine s (applyLoad r s) := by
  simp only [applyLoad]
  split
  · exact finish_movesEngine (.refl s)
  · exact finish_movesEngine (.ofKept rfl)

theorem executeAdopt_movesEngine {r : Request} {s : State} (h : s.rqe.execution = some ⟨r, .taken⟩) :
    MovesEngine s (executeAdopt r s) := by
  unfold executeAdopt
  split
  · exact gapRequest_movesEngine h (applyAdopt_movesEngine r s)
  · exact applyAdopt_movesEngine r s

theorem executeClear_movesEngine {r : Request} {s : State} (h : s.rqe.execution = some ⟨r, .taken⟩) :
    MovesEngine s (executeClear r s) := by
  unfold executeClear
  split
  · exact gapRequest_movesEngine h (applyClear_movesEngine r s)
  · exact applyClear_movesEngine r s

theorem executeLoad_movesEngine {r : Request} {s : State} (h : s.rqe.execution = some ⟨r, .taken⟩) :
    MovesEngine s (executeLoad r s) := by
  unfold executeLoad
  split
  · exact finish_movesEngine (.refl s)
  · exact gapRequest_movesEngine h (applyLoad_movesEngine r s)

theorem waitingRequest_eq_some {s : State} {r : Request} (h : waitingRequest s = some r) :
    s.rqe.execution = some ⟨r, .waitingGap⟩ ∧ s.fcu.inFlight = none := by
  unfold waitingRequest at h
  split at h
  · next hx hidle =>
    cases h
    exact ⟨hx, hidle⟩
  · cases h

theorem applyWaiting_movesEngine {r : Request} {s : State} (h : s.rqe.execution = some ⟨r, .waitingGap⟩) :
    MovesEngine s (applyWaiting r s) := by
  unfold applyWaiting
  split
  · exact applyAdopt_movesEngine r s
  split
  · exact applyClear_movesEngine r s
  split
  · exact applyLoad_movesEngine r s
  split
  · exact setPhase_movesEngine _ h
  · exact .refl s

theorem advanceDump_movesEngine (s : State) : MovesEngine s (advanceDump s) := by
  unfold advanceDump
  split
  · next hx => exact .ofMove (.advanced _ hx)
  · exact .refl s

/-- An attention arrival with the engine free begins a scan of all sixteen positions (R161). -/
theorem attention_begins {s : State} (hscan : s.rqe.scan = none) (hfree : s.rqe.execution = none) :
    attention s = { s with
      ram := (scanned s.ram { s.rqe with scan := some ⟨s.rqe.cursor, 0⟩ }).1
      rqe := (scanned s.ram { s.rqe with scan := some ⟨s.rqe.cursor, 0⟩ }).2 } := by
  rw [attention, hscan]
  exact continueScan_eq { s with rqe := { s.rqe with scan := some ⟨s.rqe.cursor, 0⟩ } } hfree

theorem attention_movesEngine (s : State) : MovesEngine s (attention s) := by
  cases hscan : s.rqe.scan with
  | some sc =>
    rw [attention, hscan]
    exact .ofMove (.rescanSet (by simp [hscan]))
  | none =>
    by_cases hx : s.rqe.execution = none
    · have h := EngineMove.scanBegun s.ram hscan hx
      exact .ofMove (by rwa [attention_begins hscan hx])
    · have hwaits := continueScan_waits { s with rqe := { s.rqe with scan := some ⟨s.rqe.cursor, 0⟩ } } hx
      simp only [attention, hscan, hwaits]
      exact .ofMove (.scanHeld hscan hx)

/-! ### One command, one step -/

theorem takenRequest_eq_some {s : State} {r : Request} (h : takenRequest s = some r) : s.rqe.execution = some ⟨r, .taken⟩ := by
  unfold takenRequest at h
  split at h
  · next hx =>
    cases h
    exact hx
  · cases h

/-- A row that executes a taken request moves the Request Engine as the execution does, or not at all. -/
theorem withTaken_movesEngine {belongs : Request → Bool} {run : Request → State → State} {s : State}
    (h : ∀ r, s.rqe.execution = some ⟨r, .taken⟩ → MovesEngine s (run r s)) : MovesEngine s (withTaken belongs run s) := by
  unfold withTaken
  split
  · next r htaken =>
    split
    · exact h r (takenRequest_eq_some htaken)
    · exact .refl s
  · exact .refl s

/-- Every command moves the Request Engine as `EngineMove` says. -/
theorem exec_movesEngine {i : Instr} {s t : State} (h : exec i s = .next t) : MovesEngine s t := by
  cases i <;> (injection h with h; subst h)
  case powerOnReset => exact .ofMove .reset
  case softReset =>
    split
    · exact .ofMove .reset
    · exact .refl s
  case attentionArrival => exact attention_movesEngine s
  case hostRamWrite => exact (advanceDump_movesEngine s).congr rfl
  case computationComplete => exact completeInFlight_movesEngine s
  case gapRequestApply =>
    split
    · next hwaiting => exact applyWaiting_movesEngine (waitingRequest_eq_some hwaiting).1
    · exact .refl s
  case tableDumpDone =>
    split
    · exact finish_movesEngine (.ofKept rfl)
    · exact .refl s
  case refusedKind | refusedRange => exact withTaken_movesEngine fun r _ => finish_movesEngine (.refl s)
  case adoptMode | adoptLoad | adoptLane | adoptLink => exact withTaken_movesEngine fun r => executeAdopt_movesEngine
  case clearSticky | clearLane | clearChannelCounts | clearNoticeHeader =>
    exact withTaken_movesEngine fun r => executeClear_movesEngine
  case tableLoad => exact withTaken_movesEngine fun r => executeLoad_movesEngine
  case tableDump => exact withTaken_movesEngine fun r hx => gapRequest_movesEngine hx (setPhase_movesEngine _ hx)
  case modeGoDormant => exact withTaken_movesEngine fun r _ => finish_movesEngine (goDormant_movesEngine s)
  case modeGoStandby => exact withTaken_movesEngine fun r _ => goStandby_movesEngine r s
  case modeGoActive => exact withTaken_movesEngine fun r _ => goActive_movesEngine r s
  case modeGoCalibrate => exact withTaken_movesEngine fun r => goCalibrate_movesEngine
  case abandonTransition => exact withTaken_movesEngine fun r _ => abandonCalibration_movesEngine r s
  case abandonCapture => exact withTaken_movesEngine fun r _ => abandonRunningCapture_movesEngine r s
  case channelStop => exact withTaken_movesEngine fun r => requestStop_movesEngine
  case channelResume => exact withTaken_movesEngine fun r _ => requestResume_movesEngine r s
  case channelRestart => exact withTaken_movesEngine fun r _ => finish_movesEngine (restartChannel_movesEngine _ s)
  case capture => exact withTaken_movesEngine fun r => requestCapture_movesEngine
  case ackArrival =>
    split
    · exact (classifyAck_movesEngine _ _ _).after (by simp)
    · exact .refl s
  case replyTimeout =>
    split
    · exact endMiss_movesEngine _ _ s
    · exact .ofKept (by simp)
    · exact .refl s
  case summaryWrite | summaryEnableWrite | registerWriteIgnored | linkGrant | frameStart => exact .ofKept (by simp)
  all_goals split <;> exact .ofKept (by simp)

/-- One step moves the Request Engine as `EngineMove` says. -/
theorem step_movesEngine {s t : State} (h : step s = .next t) : MovesEngine s t := by
  unfold step at h
  split at h
  · injection h with h
    exact h ▸ .refl s
  · exact (exec_movesEngine h).after rfl

/-! ### The engine's agreement with itself (R161, R163) -/

/-- A free engine whose scan goes on ends it, or has a request of one of the sixteen slots in execution (R161, R162). -/
theorem scanned_consistent {m : Memory} {e : RequestEngine} (hcursor : e.cursor < 16) (hfree : e.execution = none)
    (hrescan : e.rescan = true → e.scan.isSome = true) (hlong : ∀ x ∈ e.long, x.slot < 16) :
    EngineConsistent (scanned m e).2 := by
  obtain ⟨-, hx, hscan, hc, hl, hr⟩ | ⟨slot, j, start, hslot, -, -, hx, hscan, hc, hl⟩ := scanned_cases m e
  · rw [EngineConsistent, hx, hscan, hc, hl, hfree]
    refine ⟨hcursor, Iff.rfl, fun h => ?_, by simp, hlong⟩
    have hnone := hr h
    rw [scanned, hnone] at h
    exact hnone ▸ hrescan h
  · rw [EngineConsistent, hx, hscan, hc, hl]
    refine ⟨Nat.mod_lt _ (by decide), by simp, fun _ => rfl, fun x hsome => ?_, hlong⟩
    cases hsome
    exact hslot

theorem EngineMove.consistent {e e' : RequestEngine} (h : EngineMove e e') (he : EngineConsistent e) : EngineConsistent e' := by
  obtain ⟨hcursor, hscan, hrescan, hslot, hlong⟩ := he
  cases h with
  | reset => exact resetIsSafe.engine
  | answered owner => exact ⟨hcursor, hscan, hrescan, hslot, fun x hx => hlong x (List.mem_of_mem_filter hx)⟩
  | joined owner hx =>
    refine ⟨hcursor, hscan, hrescan, hslot, fun x hmem => ?_⟩
    obtain hmem | hmem := List.mem_append.mp hmem
    · exact hlong x hmem
    · exact List.mem_singleton.mp hmem ▸ hslot _ hx
  | advanced q hx =>
    refine ⟨hcursor, by simp [hscan, hx], hrescan, fun x hsome => ?_, hlong⟩
    have hr := hslot _ hx
    cases hsome
    exact hr
  | released m => exact scanned_consistent hcursor rfl hrescan hlong
  | rescanSet hsome => exact ⟨hcursor, hscan, fun _ => hsome, hslot, hlong⟩
  | scanBegun m hnone hfree => exact scanned_consistent hcursor hfree (fun _ => rfl) hlong
  | scanHeld hnone hx => exact absurd (Option.isSome_iff_ne_none.mpr hx) (by simp [← hscan, hnone])

theorem MovesEngine.consistent {s t : State} (h : MovesEngine s t) (hs : EngineConsistent s.rqe) : EngineConsistent t.rqe :=
  Relation.ReflTransGen.head_induction_on (motive := fun e _ => EngineConsistent e → EngineConsistent t.rqe) h id
    (fun hmove _ ih he => ih (hmove.consistent he)) hs

/-- Settles O58: one step makes moves of `EngineMove`, and each of them keeps the engine's agreement with itself. -/
theorem engineStaysConsistent : Obligations.EngineStaysConsistent := fun _ _ hs h => (step_movesEngine h).consistent hs

end Sys2Proof.Machine
end

section
/-! PROOF. The long-running list and what its requests wait on, as one view of the part, and the moves that keep the two matched
(R164, R169, R179). -/

namespace Sys2Proof.Machine

open Sys2Proof.Safety

/-! ### The list and its owners -/

/-- The channels that are STOPPING (R148). -/
def LinkController.stopping (a : LinkController) (c : ChannelId) : Bool := (a.get c).state == .stopping

/-- The owners with a request on the long-running list, in its order, and what they wait on (R164): the calibration, the capture,
and the STOPs. -/
structure LongView where
  owners : List LongOwner
  calibrating : Bool
  capture : Option Capture
  stopping : ChannelId → Bool

def State.longView (s : State) : LongView :=
  ⟨s.rqe.long.map (·.owner), s.sc.op == .calibrating, s.fcu.capture, s.alc.stopping⟩

/-- What an owner stands for is going on. -/
def LongView.runs (v : LongView) : LongOwner → Bool
  | .calibration => v.calibrating
  | .capture => v.capture.isSome
  | .stop c => v.stopping c

/-- The owners but for one whose request has been answered. -/
def LongView.without (v : LongView) (o : LongOwner) : List LongOwner := v.owners.filter (· != o)

/-- The list matches its owners, and the running capture is between its bounds (R164, R169, R179). -/
structure LongView.Agrees (v : LongView) : Prop where
  nodup : v.owners.Nodup
  owned : ∀ o, o ∈ v.owners ↔ v.runs o = true
  capture : ∀ k, v.capture = some k → CaptureConsistent k

theorem longView_agrees_iff (s : State) :
    s.longView.Agrees ↔ LongListMatches s ∧ ∀ k, s.fcu.capture = some k → CaptureConsistent k := by
  have owned (o : LongOwner) : o ∈ s.longView.owners ↔ ∃ e ∈ s.rqe.long, e.owner = o := by simp [State.longView]
  constructor
  · rintro ⟨hnodup, howned, hcapture⟩
    refine ⟨⟨hnodup, ?_, ?_, fun c => ?_⟩, hcapture⟩ <;> rw [← owned, howned]
    · exact beq_iff_eq
    · exact Iff.rfl
    · exact beq_iff_eq
  · rintro ⟨⟨hnodup, hcal, hcap, hstop⟩, hcapture⟩
    refine ⟨hnodup, fun o => ?_, hcapture⟩
    rw [owned]
    cases o with
    | calibration => exact hcal.trans beq_iff_eq.symm
    | capture => exact hcap
    | stop c => exact (hstop c).trans beq_iff_eq.symm

/-! ### The moves -/

/-- One move of the long-running list and its owners. A command makes some of them one after another. -/
inductive LongMove (v : LongView) : LongView → Prop
  | reset : LongMove v ⟨[], false, none, fun _ => false⟩
  | calibrationBegun : v.calibrating = false → LongMove v { v with owners := v.owners ++ [.calibration], calibrating := true }
  | calibrationEnded : LongMove v { v with owners := v.without .calibration, calibrating := false }
  | captureBegun {k : Capture} : .capture ∉ v.owners → CaptureConsistent k →
    LongMove v { v with owners := v.owners ++ [.capture], capture := some k }
  | captureAwaited {k : Capture} : v.capture = some k → LongMove v { v with capture := some { k with skipCurrent := false } }
  | captureRecorded {k : Capture} (frame : Word) : v.capture = some k → (k.advanced frame).next < k.count →
    LongMove v { v with capture := some (k.advanced frame) }
  | captureEnded : LongMove v { v with owners := v.without .capture, capture := none }
  | stopBegun (c : ChannelId) : v.stopping c = false →
    LongMove v { v with owners := v.owners ++ [.stop c], stopping := Function.update v.stopping c true }
  | stopEnded (c : ChannelId) : LongMove v { v with owners := v.without (.stop c), stopping := Function.update v.stopping c false }

/-- An owner that stops running leaves the list. -/
theorem LongView.Agrees.ended {v w : LongView} (h : v.Agrees) {o : LongOwner} (howners : w.owners = v.without o)
    (hruns : ∀ p, w.runs p = true ↔ v.runs p = true ∧ p ≠ o) (hcapture : ∀ k, w.capture = some k → CaptureConsistent k) : w.Agrees := by
  refine ⟨howners ▸ h.nodup.filter _, fun p => ?_, hcapture⟩
  rw [howners, hruns, LongView.without, List.mem_filter, h.owned, bne_iff_ne]

/-- An owner that begins to run joins the list. -/
theorem LongView.Agrees.begun {v w : LongView} (h : v.Agrees) {o : LongOwner} (hnot : o ∉ v.owners)
    (howners : w.owners = v.owners ++ [o]) (hruns : ∀ p, w.runs p = true ↔ v.runs p = true ∨ p = o)
    (hcapture : ∀ k, w.capture = some k → CaptureConsistent k) : w.Agrees := by
  refine ⟨howners ▸ List.nodup_append_comm.mp (h.nodup.cons hnot), fun p => ?_, hcapture⟩
  rw [howners, hruns, List.mem_append, List.mem_singleton, h.owned]

theorem LongView.Agrees.not_mem {v : LongView} (h : v.Agrees) {o : LongOwner} (hruns : v.runs o = false) : o ∉ v.owners :=
  fun hmem => absurd ((h.owned o).mp hmem) (by simp [hruns])

/-- A record written leaves the capture between its bounds while some are left to write; the first one has put down its frame number. -/
theorem captureConsistent_advanced {k : Capture} (h : CaptureConsistent k) (frame : Word) (hmore : (k.advanced frame).next < k.count) :
    CaptureConsistent (k.advanced frame) := by
  obtain ⟨hlow, hhigh, -, hfirst⟩ := h
  refine ⟨hlow, hhigh, hmore, iff_of_true ?_ k.next.succ_pos⟩
  unfold Capture.advanced
  split
  · rfl
  · next hnext => exact hfirst.mpr (Nat.pos_of_ne_zero hnext)

theorem LongMove.agrees {v w : LongView} (hmove : LongMove v w) (h : v.Agrees) : w.Agrees := by
  cases hmove with
  | reset => exact ⟨List.nodup_nil, fun o => by cases o <;> simp [LongView.runs], by simp⟩
  | calibrationBegun hidle =>
    exact h.begun (h.not_mem (o := .calibration) hidle) rfl (fun p => by cases p <;> simp [LongView.runs]) h.capture
  | calibrationEnded => exact h.ended (o := .calibration) rfl (fun p => by cases p <;> simp [LongView.runs]) h.capture
  | captureBegun hnot hk =>
    exact h.begun hnot rfl (fun p => by cases p <;> simp [LongView.runs]) fun k hsome => Option.some.inj hsome ▸ hk
  | captureAwaited hk =>
    refine ⟨h.nodup, fun o => (h.owned o).trans (by cases o <;> simp [LongView.runs, hk]), fun k hsome => ?_⟩
    have hold := h.capture _ hk
    cases hsome
    exact hold
  | captureRecorded frame hk hmore =>
    refine ⟨h.nodup, fun o => (h.owned o).trans (by cases o <;> simp [LongView.runs, hk]), fun k hsome => ?_⟩
    exact Option.some.inj hsome ▸ captureConsistent_advanced (h.capture _ hk) frame hmore
  | captureEnded => exact h.ended (o := .capture) rfl (fun p => by cases p <;> simp [LongView.runs]) (by simp)
  | stopBegun c hidle =>
    exact h.begun (h.not_mem (o := .stop c) hidle) rfl
      (fun p => by cases p <;> simp [LongView.runs, Function.update_apply, or_comm]) h.capture
  | stopEnded c =>
    exact h.ended (o := .stop c) rfl (fun p => by cases p <;> simp [LongView.runs, Function.update_apply, and_comm]) h.capture

/-- The long-running list and its owners make moves of `LongMove`, any number of them. -/
def MovesLong (s t : State) : Prop := Relation.ReflTransGen LongMove s.longView t.longView

theorem MovesLong.ofKept {s t : State} (h : t.longView = s.longView) : MovesLong s t := by
  rw [MovesLong, h]

theorem MovesLong.refl (s : State) : MovesLong s s := .ofKept rfl

theorem MovesLong.ofMove {s t : State} (h : LongMove s.longView t.longView) : MovesLong s t := .single h

theorem MovesLong.trans {s t u : State} (hst : MovesLong s t) (htu : MovesLong t u) : MovesLong s u :=
  Relation.ReflTransGen.trans hst htu

/-- What precedes a move and keeps list and owners is part of it. -/
theorem MovesLong.after {s t u : State} (h : MovesLong t u) (hview : t.longView = s.longView) : MovesLong s u := by
  rwa [MovesLong, ← hview]

/-- What follows a move and keeps list and owners is part of it. -/
theorem MovesLong.congr {s t u : State} (h : MovesLong s t) (hview : u.longView = t.longView) : MovesLong s u := by
  rwa [MovesLong, hview]

end Sys2Proof.Machine
end

section
/-! PROOF. What one command can do to the long-running list and to what its requests wait on: one inversion lemma,
`exec_movesLong`, and by it the match of list and owners through every step (R164). -/

namespace Sys2Proof.Machine

open Sys2Proof.Safety

/-! ### What the operations make of the list -/

@[simp] theorem releaseEngine_long (s : State) : (releaseEngine s).rqe.long = s.rqe.long := by
  rw [releaseEngine_eq]
  obtain ⟨-, -, -, -, h, -⟩ | ⟨_, _, _, -, -, -, -, -, -, h⟩ := scanned_cases s.ram { s.rqe with execution := none } <;> exact h

@[simp] theorem finish_long (r : Request) (code : ResultCode) (detail : Nat) (payload : List Word) (s : State) :
    (finish r code detail payload s).rqe.long = s.rqe.long := releaseEngine_long _

@[simp] theorem stayTaken_long (r : Request) (owner : LongOwner) (s : State) :
    (stayTaken r owner s).rqe.long = s.rqe.long ++ [⟨r.slot, r.kind, r.tag, owner⟩] := releaseEngine_long _

@[simp] theorem setPhase_long (r : Request) (p : Phase) (s : State) : (setPhase r p s).rqe.long = s.rqe.long := rfl

@[simp] theorem advanceDump_long (s : State) : (advanceDump s).rqe.long = s.rqe.long := by
  unfold advanceDump
  split <;> rfl

@[simp] theorem attention_long (s : State) : (attention s).rqe.long = s.rqe.long := by
  have scans (e : RequestEngine) : (scanned s.ram e).2.long = e.long := by
    obtain ⟨-, -, -, -, h, -⟩ | ⟨_, _, _, -, -, -, -, -, -, h⟩ := scanned_cases s.ram e <;> exact h
  unfold attention continueScan
  split
  · rfl
  · split
    · rw [scanOn_eq_scanned, scans]
    · rfl

/-- A long-running request that ends is off the list; one that does not stand there is not on it. -/
@[simp] theorem completeLong_long (owner : LongOwner) (code : ResultCode) (detail : Nat) (payload : List Word) (s : State) :
    (completeLong owner code detail payload s).rqe.long = s.rqe.long.filter fun x => x.owner != owner := by
  unfold completeLong
  split
  · next hnone =>
    rw [List.filter_eq_self.mpr]
    simpa [longEntryOf] using hnone
  · rfl

/-! ### What the operations make of the STOPPING channels -/

theorem LinkController.set_stopping (a : LinkController) (c : ChannelId) (x : Channel) :
    (a.set c x).stopping = Function.update a.stopping c (x.state == .stopping) := by
  funext d
  by_cases h : d = c <;> simp [LinkController.stopping, LinkController.get_set, h]

/-- A channel replaced by one that is STOPPING just if it was. -/
theorem LinkController.set_stopping_same {a : LinkController} {c : ChannelId} {x : Channel}
    (h : x.state = .stopping ↔ (a.get c).state = .stopping) : (a.set c x).stopping = a.stopping := by
  rw [LinkController.set_stopping, Function.update_eq_self_iff]
  exact Bool.eq_iff_iff.mpr (by simpa [LinkController.stopping] using h)

@[simp] theorem deposit_stopping (c : ChannelId) (msg : Message) (s : State) : (deposit c msg s).alc.stopping = s.alc.stopping := by
  rw [deposit_alc]
  refine LinkController.set_stopping_same ?_
  unfold deposited
  cases hstate : (s.alc.get c).state <;> dsimp only <;> repeat' split
  all_goals simp [hstate]

theorem grantable_pending {a : LinkController} {c : ChannelId} {msg : Message} (h : grantable a = some (c, msg)) :
    (a.get c).state = .pending := by
  unfold grantable firstPending at h
  split at h
  · next hfirst =>
    obtain ⟨_, -, hc⟩ := Option.map_eq_some_iff.mp h
    cases hc
    split_ifs at hfirst <;> (cases hfirst; assumption)
  · cases h

@[simp] theorem LinkController.consulted_stopping (a : LinkController) : a.consulted.stopping = a.stopping := by
  unfold LinkController.consulted
  split
  · next c msg hgrant =>
    have granted : (grant c msg a).stopping = (a.set c { a.get c with slot := none, state := .outstanding }).stopping := by
      funext d
      cases d <;> rfl
    rw [granted, LinkController.set_stopping_same (by simp [grantable_pending hgrant])]
  · rfl

@[simp] theorem LinkController.freed_stopping (a : LinkController) : a.freed.stopping = a.stopping := by
  funext c
  simp [LinkController.stopping]

@[simp] theorem LinkController.adopt_stopping (a : LinkController) (r : LinkRecord) : (a.adopt r).stopping = a.stopping := by
  unfold LinkController.adopt
  split <;> rfl

@[simp] theorem LinkController.cleared_stopping (a : LinkController) : a.cleared.stopping = a.stopping := by
  funext c
  simp [LinkController.stopping, LinkController.cleared_get]

/-! ### What keeps list and owners -/

@[simp] theorem offerNotice_longView (kind : NoticeKind) (subject : Nat) (first second : Word) (s : State) :
    (offerNotice kind subject first second s).longView = s.longView := by simp [State.longView]

@[simp] theorem finish_longView (r : Request) (code : ResultCode) (detail : Nat) (payload : List Word) (s : State) :
    (finish r code detail payload s).longView = s.longView := by simp [State.longView]

theorem owners_without (s : State) (o : LongOwner) :
    s.longView.without o = (s.rqe.long.filter fun x => x.owner != o).map (·.owner) := by
  simp [State.longView, LongView.without, List.filter_map, Function.comp_def]

/-- A long-running request that ends leaves its owner off the list; what the owner stood for is another's to end. -/
@[simp] theorem completeLong_longView (owner : LongOwner) (code : ResultCode) (detail : Nat) (payload : List Word) (s : State) :
    (completeLong owner code detail payload s).longView = { s.longView with owners := s.longView.without owner } := by
  rw [owners_without]
  simp [State.longView]

@[simp] theorem stayTaken_longView (r : Request) (owner : LongOwner) (s : State) :
    (stayTaken r owner s).longView = { s.longView with owners := s.longView.owners ++ [owner] } := by
  simp [State.longView]

@[simp] theorem channelNotice_longView (c : ChannelId) (reason : ChannelReason) (cond : Condition) (s : State) :
    (channelNotice c reason cond s).longView = s.longView := by simp [State.longView]

@[simp] theorem raiseSummary_longView (bit : BitVec 7) (s : State) : (raiseSummary bit s).longView = s.longView := rfl

@[simp] theorem setPhase_longView (r : Request) (p : Phase) (s : State) : (setPhase r p s).longView = s.longView := rfl

@[simp] theorem advanceDump_longView (s : State) : (advanceDump s).longView = s.longView := by simp [State.longView]

@[simp] theorem attention_longView (s : State) : (attention s).longView = s.longView := by simp [State.longView]

@[simp] theorem updateLane_longView (l : LaneId) (x : Lane) (s : State) : (updateLane l x s).longView = s.longView := by
  simp [State.longView]

@[simp] theorem setLaneRx_longView (l : LaneId) (rx : RxState) (s : State) : (setLaneRx l rx s).longView = s.longView := rfl

@[simp] theorem freeLink_longView (s : State) : (freeLink s).longView = s.longView := by
  simp [State.longView, freeLink]

@[simp] theorem countStray_longView (s : State) : (countStray s).longView = s.longView := rfl

@[simp] theorem setLinkRx_longView (rx : RxState) (address : Option Byte) (s : State) :
    (setLinkRx rx address s).longView = s.longView := rfl

@[simp] theorem takeCharacter_longView (ch : BitVec 10) (s : State) : (takeCharacter ch s).longView = s.longView := by
  unfold takeCharacter
  repeat' split
  all_goals rfl

@[simp] theorem consultArbiter_longView (s : State) : (consultArbiter s).longView = s.longView := by
  simp [State.longView, consultArbiter]

@[simp] theorem clearEscalation_longView (s : State) : (clearEscalation s).longView = s.longView := rfl

theorem setChannel_longView {c : ChannelId} {x : Channel} {s : State} (h : x.state = .stopping ↔ (s.alc.get c).state = .stopping) :
    (setChannel c x s).longView = s.longView := by
  simp [State.longView, LinkController.set_stopping_same h]

@[simp] theorem deposit_longView (c : ChannelId) (msg : Message) (s : State) : (deposit c msg s).longView = s.longView := by
  simp [State.longView]

@[simp] theorem makeDeposits_longView (c : Computation) (r : Results) (s : State) :
    (makeDeposits c r s).longView = s.longView := by
  unfold makeDeposits
  split <;> simp [depositAll]

@[simp] theorem unitNotices_longView (c : Computation) (r : Results) (s : State) :
    (unitNotices c r s).longView = s.longView := by
  simp [State.longView, unitNotices_fcu]

@[simp] theorem publish_longView (c : Computation) (r : Results) (s : State) : (publish c r s).longView = s.longView := by
  simp [State.longView, publish]

@[simp] theorem startFrame_longView (s : State) : (startFrame s).longView = s.longView := by
  unfold startFrame
  split
  · simp [State.longView, beginComputation]
  · rfl

@[simp] theorem applyAdopt_longView (r : Request) (s : State) : (applyAdopt r s).longView = s.longView := by
  have hstopping : (adoptNamed r.param1 s).alc.stopping = s.alc.stopping := by
    obtain h | ⟨record, h⟩ := adoptNamed_alc r.param1 s <;> simp [h]
  simp [State.longView, applyAdopt, adoptNamed_fcu, hstopping]

@[simp] theorem applyClear_longView (r : Request) (s : State) : (applyClear r s).longView = s.longView := by
  have hstopping : (clearNamed r.param1 s).alc.stopping = s.alc.stopping := by
    obtain h | h := clearNamed_alc r.param1 s <;> simp [h]
  have hcapture : (clearNamed r.param1 s).fcu.capture = s.fcu.capture := by
    rw [clearNamed, ifNamed_keeps (·.fcu.capture) (by simp), ifNamed_keeps (·.fcu.capture) (by simp),
      ifNamed_keeps (·.fcu.capture) (by simp), ifNamed_keeps (·.fcu.capture) (act := clearStickyFlags) fun _ => rfl]
  simp [State.longView, applyClear, hstopping, hcapture]

@[simp] theorem applyLoad_longView (r : Request) (s : State) : (applyLoad r s).longView = s.longView := by
  unfold applyLoad
  dsimp only
  split
  · simp
  · generalize candidate s.ram s.table (loadRange r) = table
    exact finish_longView ..

@[simp] theorem executeAdopt_longView (r : Request) (s : State) : (executeAdopt r s).longView = s.longView := by
  unfold executeAdopt
  split
  · exact gapRequest_keeps (P := fun t => t.longView = s.longView) (applyAdopt_longView r s) rfl
  · exact applyAdopt_longView r s

@[simp] theorem executeClear_longView (r : Request) (s : State) : (executeClear r s).longView = s.longView := by
  unfold executeClear
  split
  · exact gapRequest_keeps (P := fun t => t.longView = s.longView) (applyClear_longView r s) rfl
  · exact applyClear_longView r s

@[simp] theorem executeLoad_longView (r : Request) (s : State) : (executeLoad r s).longView = s.longView := by
  unfold executeLoad
  split
  · exact finish_longView _ _ _ _ _
  · exact gapRequest_keeps (P := fun t => t.longView = s.longView) (applyLoad_longView r s) rfl

@[simp] theorem applyWaiting_longView (r : Request) (s : State) : (applyWaiting r s).longView = s.longView := by
  unfold applyWaiting
  repeat' split
  all_goals simp [beginDump]

/-! ### The capture (R169, R170, R179) -/

theorem recordCapture_movesLong (c : Computation) (r : Results) (s : State) : MovesLong s (recordCapture c r s) := by
  simp only [recordCapture]
  split
  · exact .refl s
  · next k hk =>
    split
    · exact .ofMove (.captureAwaited hk)
    split
    · next hmore => exact .ofMove (.captureRecorded c.frame hk hmore)
    · refine .ofMove ?_
      rw [completeLong_longView]
      exact .captureEnded

theorem captureBegun_consistent {r : Request} {busy : Bool} (h : ¬(r.param1.toNat < 1 ∨ 32 < r.param1.toNat)) :
    CaptureConsistent ⟨r.slot, r.param1.toNat, 0, none, busy⟩ := by
  simp only [CaptureConsistent]
  simp
  omega

theorem requestCapture_movesLong (r : Request) (s : State) : MovesLong s (requestCapture r s) := by
  unfold requestCapture
  split
  · exact .ofKept (by simp)
  · next hrange =>
    split
    · exact .ofKept (by simp)
    · next hnone =>
      refine .ofMove ?_
      have hnot : LongOwner.capture ∉ s.longView.owners := by simpa [longEntryOf, State.longView] using hnone
      rw [stayTaken_longView]
      exact .captureBegun hnot (captureBegun_consistent hrange)

theorem abandonRunningCapture_movesLong (r : Request) (s : State) : MovesLong s (abandonRunningCapture r s) := by
  unfold abandonRunningCapture
  split
  · exact .ofKept (by simp)
  · refine .ofMove ?_
    rw [finish_longView, completeLong_longView]
    exact .captureEnded

/-! ### The STOPs (R145, R148, R150) -/

theorem setChannel_longView_set (c : ChannelId) (x : Channel) (s : State) : (setChannel c x s).longView =
    { s.longView with stopping := Function.update s.longView.stopping c (x.state == .stopping) } := by
  simp [State.longView, LinkController.set_stopping]

theorem removeTransaction_movesLong (c : ChannelId) (cond : Condition) (s : State) : MovesLong s (removeTransaction c cond s) := by
  have hended : endedState (s.alc.get c) ≠ .stopping := (endedState_ne _).2
  simp only [removeTransaction]
  split
  · refine .ofMove ?_
    rw [completeLong_longView, freeLink_longView, setChannel_longView_set, beq_false_of_ne hended]
    exact .stopEnded c
  · next hstate =>
    rw [MovesLong, freeLink_longView, setChannel_longView (by simpa [hended] using hstate)]

theorem endGood_movesLong (c : ChannelId) (cond : Condition) (s : State) : MovesLong s (endGood c cond s) := by
  refine (removeTransaction_movesLong c cond _).after ?_
  split <;> split <;> simp [setChannel_longView]

theorem endMiss_movesLong (c : ChannelId) (cond : Condition) (s : State) : MovesLong s (endMiss c cond s) := by
  refine (removeTransaction_movesLong c cond _).after ?_
  split <;> simp [setChannel_longView]

theorem classifyAck_movesLong (address check : Byte) (s : State) : MovesLong s (classifyAck address check s) := by
  unfold classifyAck
  split
  · exact .ofKept rfl
  · exact .ofKept (freeLink_longView s)
  · unfold classifyAwaited
    split
    · exact endMiss_movesLong _ _ s
    split
    · exact .ofKept rfl
    split
    · exact endMiss_movesLong _ _ s
    · exact endGood_movesLong _ _ s
  · exact .refl s
  · exact .refl s

/-- A RESTART leaves its channel IDLE, so that a STOP has nothing to wait on any more (R150). -/
theorem restartChannel_movesLong (c : ChannelId) (s : State) : MovesLong s (restartChannel c s) := by
  have hview : State.longView { s with alc := (abandonTransaction c s.alc).set c (restarted (s.alc.get c)) } =
      { s.longView with stopping := Function.update s.longView.stopping c false } := by
    have hchannels : (abandonTransaction c s.alc).stopping = s.alc.stopping := by
      funext d
      simp [LinkController.stopping]
    rw [State.longView, LinkController.set_stopping, hchannels]
    rfl
  simp only [restartChannel]
  split
  · refine .ofMove ?_
    rw [completeLong_longView, channelNotice_longView, hview]
    exact .stopEnded c
  · next hstate =>
    have hnot : s.longView.stopping c = false := beq_false_of_ne hstate
    rw [MovesLong, channelNotice_longView, hview, ← hnot, Function.update_eq_self]

theorem requestStop_movesLong (r : Request) (s : State) : MovesLong s (requestStop r s) := by
  have stops (h : (s.alc.get (channelOf r)).state ≠ .stopping) : (stopNow (channelOf r) s).longView = s.longView :=
    setChannel_longView (by simp [h])
  unfold requestStop
  split
  · next hstate => exact .ofKept (by rw [finish_longView, stops (by simp [hstate])])
  · next hstate => exact .ofKept (by rw [finish_longView, stops (by simp [hstate])])
  · next hstate =>
    refine .ofMove ?_
    rw [stayTaken_longView, stopLater, setChannel_longView_set]
    exact .stopBegun _ (by simp [State.longView, LinkController.stopping, hstate])
  · exact .ofKept (by simp)
  · exact .ofKept (by simp)

theorem requestResume_movesLong (r : Request) (s : State) : MovesLong s (requestResume r s) := by
  unfold requestResume
  split
  · next hstate => exact .ofKept (by rw [finish_longView, setChannel_longView (by simp [hstate])])
  · exact .ofKept (by simp)

/-! ### The calibration (R123, R126, R127) -/

/-- The states a calibration ends in are not CALIBRATING. -/
def LeavesCalibration (c : StateController) : Prop :=
  c.op = .calibrating → c.priorState ≠ .calibrating ∧ c.thenTarget.getD .standby ≠ .calibrating

theorem leavesCalibration_of_consistent {c : StateController} {v : Bool} (h : ControlConsistent c v) : LeavesCalibration c := by
  intro hop
  constructor
  · obtain hprior | ⟨hprior | hprior, -⟩ := h.priorState hop <;> simp [hprior]
  · obtain htarget | htarget := h.thenTarget hop <;> simp [htarget]

@[simp] theorem changeState_longView (new : OpState) (reason : StateReason) (s : State) :
    (changeState new reason s).longView = { s.longView with calibrating := new == .calibrating } := by
  simp [State.longView, StateController.enter]

theorem changeState_longView_kept {new : OpState} {reason : StateReason} {s : State} (hop : s.sc.op ≠ .calibrating)
    (hnew : new ≠ .calibrating) : (changeState new reason s).longView = s.longView := by
  rw [changeState_longView, beq_false_of_ne hnew, ← beq_false_of_ne hop]
  rfl

/-- A State Controller replaced by one in the same operating state. -/
theorem withController_longView {s : State} {c : StateController} (h : c.op = s.sc.op) :
    State.longView { s with sc := c } = s.longView := by
  simp [State.longView, h]

theorem failCalibration_movesLong (why : CalFailure) {target : OpState} (reason : StateReason) (s : State)
    (h : target ≠ .calibrating) : MovesLong s (failCalibration why target reason s) := by
  have hview : (failCalibration why target reason s).longView =
      { s.longView with owners := s.longView.without .calibration, calibrating := target == .calibrating } := by
    rw [owners_without]
    simp [failCalibration, State.longView, StateController.enter]
  refine .ofMove ?_
  rw [hview, beq_false_of_ne h]
  exact .calibrationEnded

theorem succeedCalibration_movesLong (avg : CalSums) (s : State) (h : s.sc.thenTarget.getD .standby ≠ .calibrating) :
    MovesLong s (succeedCalibration avg s) := by
  have hview : (succeedCalibration avg s).longView =
      { s.longView with
        owners := s.longView.without .calibration, calibrating := s.sc.thenTarget.getD .standby == .calibrating } := by
    rw [owners_without]
    simp [succeedCalibration, FrameUnit.calibrated, State.longView, StateController.enter]
  refine .ofMove ?_
  rw [hview, beq_false_of_ne h]
  exact .calibrationEnded

theorem calibrationFrame_movesLong (p : Snapshot) {s : State} (hop : s.sc.op = .calibrating) (h : LeavesCalibration s.sc) :
    MovesLong s (calibrationFrame p s) := by
  obtain ⟨hprior, htarget⟩ := h hop
  have haccumulated : State.longView { s with sc := s.sc.accumulate p.imu } = s.longView := withController_longView rfl
  simp only [calibrationFrame]
  split
  · exact failCalibration_movesLong _ _ s hprior
  split
  · exact failCalibration_movesLong _ _ s hprior
  split
  · exact .ofKept haccumulated
  split
  · exact (failCalibration_movesLong _ _ _ hprior).after haccumulated
  · exact (succeedCalibration_movesLong _ _ (by exact htarget)).after haccumulated

theorem takeReport_movesLong (c : Computation) (r : Results) {s : State} (h : LeavesCalibration s.sc) :
    MovesLong s (takeReport c r s) := by
  have hstored : (storeReport c r s).longView = s.longView := withController_longView rfl
  refine MovesLong.after (t := storeReport c r s) ?_ hstored
  rw [takeReport_eq]
  cases hop : s.sc.op with
  | dormant | standby => exact .refl _
  | calibrating =>
    dsimp only
    split
    · exact calibrationFrame_movesLong c.snapshot hop h
    · exact .refl _
  | active =>
    dsimp only
    split
    · exact .ofKept (changeState_longView_kept (by simp [storeReport, hop]) (by decide))
    · exact .refl _
  | limp =>
    have hcounted (n : Nat) : State.longView { storeReport c r s with sc := { (storeReport c r s).sc with recovery := n } } =
        (storeReport c r s).longView := withController_longView rfl
    simp only [recoverFromLimp]
    split
    · exact .ofKept ((changeState_longView_kept (by simp [storeReport, hop]) (by decide)).trans (hcounted _))
    · exact .ofKept (hcounted _)

theorem completeInFlight_movesLong {s : State} (h : LeavesCalibration s.sc) : MovesLong s (completeInFlight s) := by
  unfold completeInFlight
  split
  · next c _ =>
    have hstep1 : State.longView { s with fcu := s.fcu.step1 (compute c s.table) } = s.longView := rfl
    have reported : MovesLong s (throughReport c (compute c s.table) s) :=
      (takeReport_movesLong _ _ (by simpa using h)).after (by rw [unitNotices_longView, makeDeposits_longView, hstep1])
    have recorded := (recordCapture_movesLong c (compute c s.table)
      (publish c (compute c s.table) (throughReport c (compute c s.table) s))).after (publish_longView _ _ _)
    exact (reported.trans recorded).congr rfl
  · exact .refl s

/-! ### MODE_GO and ABANDON -/

theorem finish_movesLong {r : Request} {code : ResultCode} {detail : Nat} {payload : List Word} {s t : State}
    (h : MovesLong s t) : MovesLong s (finish r code detail payload t) := h.congr (finish_longView _ _ _ _ _)

/-- A change of state by MODE_GO, from a state other than CALIBRATING to one. -/
theorem changeState_movesLong {new : OpState} {reason : StateReason} {s t : State} (hview : t.longView = s.longView)
    (hop : t.sc.op ≠ .calibrating) (hnew : new ≠ .calibrating) : MovesLong s (changeState new reason t) :=
  .ofKept ((changeState_longView_kept hop hnew).trans hview)

theorem goDormant_movesLong (s : State) : MovesLong s (goDormant s) := by
  unfold goDormant
  cases hop : s.sc.op with
  | dormant => exact .refl s
  | calibrating => exact failCalibration_movesLong _ _ s (by decide)
  | standby | active | limp => exact changeState_movesLong rfl (by simp [hop]) (by decide)

theorem goStandby_movesLong (r : Request) (s : State) : MovesLong s (goStandby r s) := by
  unfold goStandby
  cases hop : s.sc.op with
  | dormant =>
    dsimp only
    split
    · exact finish_movesLong (changeState_movesLong rfl (by simp [hop]) (by decide))
    · exact finish_movesLong (.refl s)
  | calibrating | standby => exact finish_movesLong (.refl s)
  | active | limp => exact finish_movesLong (changeState_movesLong rfl (by simp [hop]) (by decide))

theorem goActive_movesLong (r : Request) (s : State) : MovesLong s (goActive r s) := by
  have enters (hop : s.sc.op ≠ .calibrating) : MovesLong s (finish r .ok 0 [] (changeState .active .modeGo (clearEscalation s))) :=
    finish_movesLong (changeState_movesLong rfl hop (by decide))
  unfold goActive
  cases hop : s.sc.op with
  | dormant =>
    dsimp only
    split
    · exact enters (by simp [hop])
    · exact finish_movesLong (.refl s)
  | calibrating => exact finish_movesLong (.refl s)
  | standby => exact enters (by simp [hop])
  | active => exact finish_movesLong (.ofKept rfl)
  | limp =>
    dsimp only
    split
    · exact finish_movesLong (.refl s)
    · exact enters (by simp [hop])

theorem acceptCalibration_movesLong (r : Request) {s : State} (hop : s.sc.op ≠ .calibrating) :
    MovesLong s (acceptCalibration r s) := by
  refine .ofMove ?_
  rw [acceptCalibration, stayTaken_longView, startCalibration, changeState_longView]
  exact .calibrationBegun (beq_false_of_ne hop)

theorem goCalibrate_movesLong (r : Request) (s : State) : MovesLong s (goCalibrate r s) := by
  unfold goCalibrate
  split
  · exact finish_movesLong (.refl s)
  cases hop : s.sc.op with
  | dormant => exact acceptCalibration_movesLong r (by simp [hop])
  | calibrating | limp => exact finish_movesLong (.refl s)
  | standby | active =>
    dsimp only
    split
    · exact finish_movesLong (.refl s)
    · exact acceptCalibration_movesLong r (by simp [hop])

theorem abandonCalibration_movesLong (r : Request) {s : State} (h : LeavesCalibration s.sc) :
    MovesLong s (abandonCalibration r s) := by
  unfold abandonCalibration
  split
  · next hop => exact finish_movesLong (failCalibration_movesLong _ _ s (h hop).1)
  · exact finish_movesLong (.refl s)

/-! ### One command, one step -/

/-- A row that executes a taken request moves list and owners as the execution does, or not at all. -/
theorem withTaken_movesLong {belongs : Request → Bool} {run : Request → State → State} {s : State}
    (h : ∀ r, MovesLong s (run r s)) : MovesLong s (withTaken belongs run s) :=
  withTaken_keeps (P := MovesLong s) (.refl s) h

/-- Either reset empties the list and leaves no owner (R171, R172). -/
theorem reset_movesLong {s t : State} (hrqe : t.rqe = resetEngine) (hsc : t.sc = resetController) (hfcu : t.fcu = resetUnit)
    (halc : t.alc = resetLink) : MovesLong s t := by
  have hstopping : resetLink.stopping = fun _ => false := by
    funext c
    cases c <;> rfl
  have hview : t.longView = ⟨[], false, none, fun _ => false⟩ := by
    rw [State.longView, hrqe, hsc, hfcu, halc, hstopping]
    rfl
  exact .ofMove (hview ▸ .reset)

/-- Every command moves the long-running list and its owners as `LongMove` says. -/
theorem exec_movesLong {i : Instr} {s t : State} (hleaves : LeavesCalibration s.sc) (h : exec i s = .next t) : MovesLong s t := by
  cases i <;> (injection h with h; subst h)
  case powerOnReset => exact reset_movesLong rfl rfl rfl rfl
  case softReset =>
    split
    · exact reset_movesLong rfl rfl rfl rfl
    · exact .refl s
  case computationComplete => exact completeInFlight_movesLong hleaves
  case refusedKind | refusedRange => exact withTaken_movesLong fun r => finish_movesLong (.refl s)
  case modeGoDormant => exact withTaken_movesLong fun r => finish_movesLong (goDormant_movesLong s)
  case modeGoStandby => exact withTaken_movesLong fun r => goStandby_movesLong r s
  case modeGoActive => exact withTaken_movesLong fun r => goActive_movesLong r s
  case modeGoCalibrate => exact withTaken_movesLong fun r => goCalibrate_movesLong r s
  case abandonTransition => exact withTaken_movesLong fun r => abandonCalibration_movesLong r hleaves
  case abandonCapture => exact withTaken_movesLong fun r => abandonRunningCapture_movesLong r s
  case channelStop => exact withTaken_movesLong fun r => requestStop_movesLong r s
  case channelResume => exact withTaken_movesLong fun r => requestResume_movesLong r s
  case channelRestart => exact withTaken_movesLong fun r => finish_movesLong (restartChannel_movesLong _ s)
  case capture => exact withTaken_movesLong fun r => requestCapture_movesLong r s
  case tableDump => exact withTaken_movesLong fun r => gapRequest_keeps (.ofKept rfl) (.ofKept rfl)
  case adoptMode | adoptLoad | adoptLane | adoptLink | clearSticky | clearLane | clearChannelCounts | clearNoticeHeader
      | tableLoad => exact withTaken_movesLong fun r => .ofKept (by simp)
  case gapRequestApply =>
    split
    · exact .ofKept (applyWaiting_longView _ s)
    · exact .refl s
  case tableDumpDone =>
    split
    · exact .ofKept (finish_longView _ _ _ _ _)
    · exact .refl s
  case hostRamWrite => exact .ofKept (advanceDump_longView s)
  case ackArrival =>
    split
    · exact (classifyAck_movesLong _ _ _).after (setLinkRx_longView _ _ s)
    · exact .refl s
  case replyTimeout =>
    split
    · exact endMiss_movesLong _ _ s
    · exact .ofKept (freeLink_longView s)
    · exact .refl s
  case summaryWrite | summaryEnableWrite | registerWriteIgnored => exact .ofKept rfl
  case messageSent => split <;> exact .ofKept rfl
  case attentionArrival | linkGrant | frameStart => exact .ofKept (by simp)
  all_goals split <;> exact .ofKept (by simp)

theorem step_movesLong {s t : State} (hleaves : LeavesCalibration s.sc) (h : step s = .next t) : MovesLong s t := by
  unfold step at h
  split at h
  · injection h with h
    exact h ▸ .refl s
  · next c rest _ => exact (exec_movesLong (s := s.withPending rest) hleaves h).after rfl

theorem MovesLong.agrees {s t : State} (h : MovesLong s t) (hs : s.longView.Agrees) : t.longView.Agrees :=
  Relation.ReflTransGen.head_induction_on (motive := fun v _ => v.Agrees → t.longView.Agrees) h id
    (fun hmove _ ih hv => ih (hmove.agrees hv)) hs

/-- Settles O57: one step makes moves of `LongMove`, and each of them keeps list and owners matched and the capture between its
bounds. That a calibration leads to a state other than CALIBRATING is the law of the State Controller. -/
theorem longListStaysMatched : Obligations.LongListStaysMatched := fun s t hmatches hcontrol hcapture h =>
  (longView_agrees_iff t).mp
    ((step_movesLong (leavesCalibration_of_consistent hcontrol) h).agrees ((longView_agrees_iff s).mpr ⟨hmatches, hcapture⟩))

end Sys2Proof.Machine
end

section
/-! PROOF. The soft reset with nothing in writing, the register writes, and the host's writes of the Exchange RAM (R155 to R158, R172). -/

namespace Sys2Proof.Machine

open Sys2Proof.Safety

/-! ### The soft reset (R172) -/

theorem exec_softReset_ignored {v : Word} (hv : v.getLsbD 0 = false) (s : State) : exec (.softReset v) s = .next s := by
  simp only [exec, execSoftReset, resetBit, hv, Bool.false_eq_true, if_false]

/-- A completion that writes no frame record leaves none to cut off (R179). -/
theorem cutCapture_notRecording {s : State} (h : s.fcu.inFlight = none ∨ recordsNow s.fcu = false) : cutCapture s = s := by
  refine cutCapture_idle fun c k hc hk => ?_
  obtain h | h := h
  · simp [h] at hc
  · simpa [recordsNow, hk] using h

end Sys2Proof.Machine

namespace Sys2Proof.Resets

open Sys2Proof.Machine Sys2Proof.Safety

/-- Settles O4: nothing is cut off, so the reset is `softResetMemory_resets` over the Exchange RAM as it stands. -/
theorem softReset : Obligations.SoftReset := by
  refine ⟨fun v s hv => exec_softReset_ignored hv s, fun v s hv hm hdump hrecord => ?_⟩
  obtain ⟨hwf, h0, h1, h2, hlow, hpage, hslots, hkept⟩ := softResetMemory_resets s.rqe hm
  refine ⟨_, ?_, hwf, h0, h1, h2, hlow, hpage, hslots, fun a ha hpage => hkept a ha hpage not_false⟩
  rw [exec_softReset hv, advanceDump_idle hdump, cutCapture_notRecording hrecord]

end Sys2Proof.Resets

namespace Sys2Proof.Machine

open Sys2Proof.Safety

/-! ### Registers (R156 to R158) -/

/-- Settles O7: each row is one setting of the port, ALERT with it. -/
theorem registerWrites : Obligations.RegisterWrites := by
  refine ⟨fun v s => ?_, fun v s => ?_, fun a v s => rfl⟩
  · rw [← summaryBits_eq]
    rfl
  · rw [← summaryBits_eq]
    rfl

/-! ### Host writes of the Exchange RAM (R155, R75) -/

/-- A host's word is stored below 8 KiB and ignored beyond (R155). -/
theorem hostWord_stored {m : Memory} (a : BitVec 12) (v : Word) (hm : m.wf = true) :
    if a.toNat < 2048 then Stored m (m.writeWord a.toNat v) a.toNat [v] else m.writeWord a.toNat v = m := by
  split
  · next ha => exact Memory.writeWord_stored _ v hm ha
  · next ha => exact Memory.writeWord_beyond m v (Nat.le_of_not_lt ha)

/-- A dump met while it is writing has come to some word, never its last, the words up to there stored (R75). -/
theorem advanceDump_stores {s : State} {r : Request} {w : Nat} (h : s.rqe.execution = some ⟨r, .dumping w⟩) (hm : s.ram.wf = true)
    (hw : w ≤ 255) : ∃ m n, w ≤ n ∧ n ≤ 255 ∧
      Stored s.ram m (imageWord + w) ((List.range (n - w)).map fun k => imageOf s.table (w + k)) ∧
      advanceDump s = { s with ram := m, rqe := { s.rqe with execution := some ⟨r, .dumping n⟩ }, freeIndex := s.freeIndex + 1 } := by
  have hreach : w ≤ dumpReach w s.freeIndex ∧ dumpReach w s.freeIndex ≤ 255 := by
    unfold dumpReach
    omega
  exact ⟨_, _, hreach.1, hreach.2, dumpSpan_stored s.table hm (by omega) hreach.1, advanceDump_writing h⟩

/-- Settles O8: the write is `hostWord_stored`, after the dump in writing, if there is one, has come as far as it does. -/
theorem hostRamWrite : Obligations.HostRamWrite := by
  refine ⟨fun a v s hm hidle => ⟨s.ram.writeWord a.toNat v, ?_, hostWord_stored a v hm⟩, fun a v s r w hm hdumping hw => ?_⟩
  · simp only [exec, execHostRamWrite, advanceDump_idle hidle]
  · obtain ⟨m, n, hwn, hn, hstored, hadvance⟩ := advanceDump_stores hdumping hm hw
    refine ⟨m, m.writeWord a.toNat v, n, ?_, hwn, hn, hstored, hostWord_stored a v hstored.1⟩
    simp only [exec, execHostRamWrite, hadvance]

end Sys2Proof.Machine
end

section
/-! PROOF. An attention arrival: the scan it begins, and the take by the bytes of R187 (R161, R162). -/

namespace Sys2Proof.Machine

open Sys2Proof.Safety

/-! ### The first POSTED slot -/

/-- The first scan position whose slot reads POSTED is found. -/
theorem firstPosted_eq_some {m : Memory} {start j : Nat} (hj : j < 16) (hposted : slotMark m ((start + j) % 16) = markPosted)
    (hbefore : ∀ i, i < j → slotMark m ((start + i) % 16) ≠ markPosted) : firstPosted m start 0 = some j := by
  have passes (n : Nat) (hn : n ≤ j) : firstPosted m start 0 = firstPosted m start n := by
    induction n with
    | zero => rfl
    | succ n ih => rw [ih (by omega), firstPosted_step (by omega), if_neg (hbefore n hn)]
  rw [passes j le_rfl, firstPosted_step hj, if_pos hposted]

/-! ### A slot's words by their bytes (R187) -/

theorem slotWord_byte (k : Nat) : 4 * slotWord k = 0x700 + 128 * k := by
  unfold slotWord
  omega

/-- The Request Engine's copy of a slot at byte address `a`, byte by byte (R187). -/
theorem readRequest_eq {m : Memory} {k a : Nat} {word : Nat → Word} (hk : k < 16) (ha : a = 0x700 + 128 * k)
    (hword : ∀ o, word o = m.readByte (a + o + 3) ++ m.readByte (a + o + 2) ++ m.readByte (a + o + 1) ++ m.readByte (a + o)) :
    readRequest m k = {
      slot := k, kind := m.readByte (a + 1), tag := m.readByte (a + 3) ++ m.readByte (a + 2)
      param1 := word 8, param2 := word 12, payload := (List.range 28).map fun n => word (16 + 4 * n) } := by
  have hplace := slotWord_byte k
  have hwords (o : Nat) (ho : o < 32) : m.readWord (slotWord k + o) = word (4 * o) := by
    rw [m.readWord_eq (by omega), hword, show 4 * (slotWord k + o) = a + 4 * o by omega]
    rfl
  obtain ⟨hkind, htag⟩ := readRequest_kind_tag m hk
  rw [← ha] at hkind htag
  have hpayload : (readRequest m k).payload = (List.range 28).map fun n => word (16 + 4 * n) := by
    refine List.map_congr_left fun n hn => ?_
    rw [Nat.add_assoc, hwords (4 + n) (by have := List.mem_range.mp hn; omega), Nat.mul_add]
  rw [← hkind, ← htag, ← hpayload, ← hwords 2 (by decide), ← hwords 3 (by decide)]
  rfl

theorem byteOf_pack8_two (b0 b1 b2 b3 : Byte) : byteOf (pack8 b0 b1 b2 b3) 2 = b2 := by
  refine BitVec.eq_of_getLsbD_eq fun i hi => ?_
  simp only [byteOf, pack8, BitVec.getLsbD_extractLsb', BitVec.getLsbD_append, hi, decide_true, Bool.true_and]
  rw [if_neg (by omega), if_neg (by omega), if_pos (by omega)]
  congr 1
  omega

theorem byteOf_pack8_three (b0 b1 b2 b3 : Byte) : byteOf (pack8 b0 b1 b2 b3) 3 = b3 := by
  refine BitVec.eq_of_getLsbD_eq fun i hi => ?_
  simp only [byteOf, pack8, BitVec.getLsbD_extractLsb', BitVec.getLsbD_append, hi, decide_true, Bool.true_and]
  rw [if_neg (by omega), if_neg (by omega), if_neg (by omega)]
  congr 1
  omega

/-- A word just written, by its four bytes. -/
theorem Memory.readByte_writeWord_pack8 {m : Memory} {i : Nat} (b0 b1 b2 b3 : Byte) (hm : m.wf = true) (hi : i < Config.ramWords) :
    (m.writeWord i (pack8 b0 b1 b2 b3)).readByte (4 * i) = b0 ∧ (m.writeWord i (pack8 b0 b1 b2 b3)).readByte (4 * i + 1) = b1 ∧
      (m.writeWord i (pack8 b0 b1 b2 b3)).readByte (4 * i + 2) = b2 ∧
      (m.writeWord i (pack8 b0 b1 b2 b3)).readByte (4 * i + 3) = b3 := by
  have hword := Memory.readWord_writeWord_same (pack8 b0 b1 b2 b3) hi hm
  rw [Memory.readWord_eq _ hi] at hword
  have hbyte (j : Nat) := congrArg (byteOf · j) hword
  refine ⟨?_, ?_, ?_, ?_⟩
  · simpa only [byteOf_pack8_zero] using hbyte 0
  · simpa only [byteOf_pack8_one] using hbyte 1
  · simpa only [byteOf_pack8_two] using hbyte 2
  · simpa only [byteOf_pack8_three] using hbyte 3

/-- A slot's first word written with another mark, kind and tag unchanged, changes the mark byte alone (R162, R187). -/
theorem slotMarked_readByte {m : Memory} {k a : Nat} (mark : Byte) (hm : m.wf = true) (hk : k < 16) (ha : a = 0x700 + 128 * k)
    (b : Nat) : (m.writeWord (slotWord k) (firstWord mark (readRequest m k).kind (readRequest m k).tag)).readByte b =
      if b = a then mark else m.readByte b := by
  obtain ⟨hkind, htag⟩ := readRequest_kind_tag m hk
  rw [← ha] at hkind htag
  have hplace : 4 * slotWord k = a := by rw [slotWord_byte, ha]
  have hfirst : firstWord mark (readRequest m k).kind (readRequest m k).tag =
      pack8 mark (m.readByte (a + 1)) (m.readByte (a + 2)) (m.readByte (a + 3)) := by
    rw [hkind, htag, firstWord, pack8]
  obtain ⟨h0, h1, h2, h3⟩ := Memory.readByte_writeWord_pack8 mark (m.readByte (a + 1)) (m.readByte (a + 2)) (m.readByte (a + 3)) hm
    (show slotWord k < 2048 by omega)
  rw [hplace] at h0 h1 h2 h3
  rw [hfirst]
  by_cases hword : a ≤ b ∧ b ≤ a + 3
  · obtain rfl | rfl | rfl | rfl : b = a ∨ b = a + 1 ∨ b = a + 2 ∨ b = a + 3 := by omega
    · rw [if_pos rfl, h0]
    · rw [if_neg (by omega), h1]
    · rw [if_neg (by omega), h2]
    · rw [if_neg (by omega), h3]
  · rw [if_neg (by omega), Memory.readByte_writeWord_ne _ _ (by omega)]

/-! ### The arrival (R161) -/

theorem attention_during {s : State} (h : s.rqe.scan.isSome = true) :
    attention s = { s with rqe := { s.rqe with rescan := true } } := by
  obtain ⟨sc, hsc⟩ := Option.isSome_iff_exists.mp h
  rw [attention, hsc]

/-- Settles O6: a scan in progress is `attention_during`, none is `attention_begins`, and the slot taken is `firstPosted_eq_some`, its
copy `readRequest_eq` and its mark `slotMarked_readByte`. -/
theorem attentionArrival : Obligations.AttentionArrival := by
  refine ⟨fun v s h => congrArg Host.Outcome.next (attention_during h),
    fun v s hscan hfree => congrArg Host.Outcome.next (attention_begins hscan hfree), ?_⟩
  intro v s j k a word hscan hfree hm hj hk ha hposted hbefore hword
  have hk16 : k < 16 := hk ▸ Nat.mod_lt _ (by decide)
  have hfirst : firstPosted s.ram s.rqe.cursor 0 = some j := by
    refine firstPosted_eq_some hj ?_ fun i hi => ?_
    · rw [← hk, slotMark_eq _ hk16, ← ha, hposted]
      rfl
    · rw [slotMark_eq _ (Nat.mod_lt _ (by decide))]
      exact hbefore i hi
  have hmarked := slotMarked_readByte markTaken hm hk16 ha
  refine ⟨_, ?_, Memory.writeWord_wf _ _ hm, (hmarked a).trans (if_pos rfl), fun b hb => (hmarked b).trans (if_neg hb)⟩
  show Host.Outcome.next (attention s) = _
  rw [attention_begins hscan hfree]
  simp only [scanned, hfirst, takenAt, ← hk, readRequest_eq hk16 ha hword]

end Sys2Proof.Machine
end

section
/-! PROOF. What host reads answer, the command of every register write, and the SPI transfers (R155, R156, R181). -/

namespace Sys2Proof.Machine

open Sys2Proof.Safety

/-! ### Host reads (R155, R156) -/

theorem Memory.readWord_cases (m : Memory) (i : Nat) : m.readWord i = if i < 2048 then m.readWord i else 0 := by
  split
  · rfl
  · next hi => exact if_neg hi

theorem hostReadRam_idle {s : State} (a : BitVec 12) (h : ∀ r w, s.rqe.execution ≠ some ⟨r, .dumping w⟩) :
    hostReadRam a s = (if a.toNat < 2048 then s.ram.readWord a.toNat else 0, s) := by
  rw [hostReadRam, advanceDump_idle h, ← Memory.readWord_cases]

/-- The words of a memory in which a stretch has been stored. -/
theorem stored_readWord {m m' : Memory} {i : Nat} {ws : List Word} (h : Stored m m' i ws) (j : Nat) :
    m'.readWord j = if i ≤ j ∧ j < i + ws.length then ws.getD (j - i) 0 else m.readWord j := by
  obtain ⟨-, hwords, hkept⟩ := h
  split
  · next hj =>
    obtain ⟨k, rfl⟩ := Nat.exists_eq_add_of_le hj.1
    rw [hwords k (by omega), Nat.add_sub_cancel_left]
  · exact Memory.readWord_congr fun a ha => hkept a (by omega)

/-- A read that meets a dump finds its words as far as it has come (R75). -/
theorem hostReadRam_writing {s : State} {r : Request} {w : Nat} (a : BitVec 12) (hm : s.ram.wf = true)
    (h : s.rqe.execution = some ⟨r, .dumping w⟩) (hw : w ≤ 255) :
    ∃ m n, w ≤ n ∧ n ≤ 255 ∧ Stored s.ram m (imageWord + w) ((List.range (n - w)).map fun k => imageOf s.table (w + k)) ∧
      hostReadRam a s =
        (if imageWord + w ≤ a.toNat ∧ a.toNat < imageWord + n then imageOf s.table (a.toNat - imageWord)
          else if a.toNat < 2048 then s.ram.readWord a.toNat else 0,
        { s with ram := m, rqe := { s.rqe with execution := some ⟨r, .dumping n⟩ }, freeIndex := s.freeIndex + 1 }) := by
  obtain ⟨m, n, hwn, hn, hstored, hadvance⟩ := advanceDump_stores h hm hw
  refine ⟨m, n, hwn, hn, hstored, ?_⟩
  have hread := stored_readWord hstored a.toNat
  rw [List.length_map, List.length_range, show imageWord + w + (n - w) = imageWord + n by omega,
    Memory.readWord_cases s.ram] at hread
  rw [hostReadRam, hadvance]
  dsimp only
  rw [hread]
  split
  · next ha =>
    have hk : a.toNat - (imageWord + w) < n - w := by omega
    simp [hk, show w + (a.toNat - (imageWord + w)) = a.toNat - imageWord by omega]
  · rfl

theorem hostReadRegister_other {a : BitVec 12} (s : State) (ha : 4 < a.toNat) : hostReadRegister a s = 0 := by
  unfold hostReadRegister
  split
  case h_4 => rfl
  all_goals omega

/-! ### Register writes (R156) -/

theorem registerWrite_eq (a : BitVec 12) (v : Word) : registerWrite a v =
    if a = 1 then .attentionArrival v
    else if a = 2 then .summaryWrite v
    else if a = 3 then .summaryEnableWrite v
    else if a = 4 ∧ v.getLsbD 0 = true then .softReset v
    else .registerWriteIgnored a v := by
  unfold registerWrite
  split
  case h_1 ha => rw [BitVec.eq_of_toNat_eq (y := 1) ha]; rfl
  case h_2 ha => rw [BitVec.eq_of_toNat_eq (y := 2) ha]; rfl
  case h_3 ha => rw [BitVec.eq_of_toNat_eq (y := 3) ha]; rfl
  case h_4 ha =>
    obtain rfl : a = 4 := BitVec.eq_of_toNat_eq ha
    simp only [show (4 : BitVec 12) ≠ 1 by decide, show (4 : BitVec 12) ≠ 2 by decide, show (4 : BitVec 12) ≠ 3 by decide, if_false,
      true_and]
  case h_5 h1 h2 h3 h4 =>
    have hne {b : BitVec 12} (h : a.toNat ≠ b.toNat) : a ≠ b := fun hab => h (congrArg BitVec.toNat hab)
    rw [if_neg (hne (b := 1) h1), if_neg (hne (b := 2) h2), if_neg (hne (b := 3) h3), if_neg fun h => hne (b := 4) h4 h.1]

/-! ### SPI transfers (R181) -/

theorem transferWords_flatMap (cut : List Byte) (hcut : cut.length < 4) :
    ∀ ws : List Word, transferWords (ws.flatMap (fun w => [byteOf w 0, byteOf w 1, byteOf w 2, byteOf w 3]) ++ cut) = ws
  | [] => by
    match cut, hcut with
    | [], _ | [_], _ | [_, _], _ | [_, _, _], _ => rfl
  | w :: rest => by
    rw [List.flatMap_cons, List.append_assoc]
    simp only [List.cons_append, List.nil_append, transferWords, pack8_byteOf, transferWords_flatMap cut hcut rest]

/-- Word addresses one after another from `addr`, wrapping from 4095 to 0. -/
theorem addr_succ (addr : BitVec 12) (i : Nat) : addr + BitVec.ofNat 12 (i + 1) = addr + 1 + BitVec.ofNat 12 i := by
  rw [BitVec.ofNat_add, BitVec.add_comm (BitVec.ofNat 12 i), BitVec.add_assoc]
  rfl

theorem wordWrites_eq (toRegister : Bool) : ∀ (addr : BitVec 12) (ws : List Word), wordWrites toRegister addr ws =
    (List.range ws.length).map fun i => wordWrite toRegister (addr + BitVec.ofNat 12 i) (ws.getD i 0)
  | _, [] => rfl
  | addr, v :: rest => by
    rw [wordWrites, wordWrites_eq, List.length_cons, List.range_succ_eq_map, List.map_cons, List.map_map]
    refine congrArg₂ List.cons (by simp) (List.map_congr_left fun i _ => ?_)
    rw [Function.comp_apply, Nat.succ_eq_add_one, addr_succ, List.getD_cons_succ]

/-- The words of a transfer that finds the part the same at every word. -/
theorem wordReads_eq {fromRegister : Bool} {s : State} (h : ∀ addr, (wordRead fromRegister addr s).2 = s) :
    ∀ (n : Nat) (addr : BitVec 12), wordReads fromRegister n addr s =
      ((List.range n).map fun i => (wordRead fromRegister (addr + BitVec.ofNat 12 i) s).1, s)
  | 0, _ => rfl
  | n + 1, addr => by
    rw [wordReads, h, wordReads_eq h n, List.range_succ_eq_map, List.map_cons, List.map_map]
    refine congrArg (·, s) (congrArg₂ List.cons (by simp) (List.map_congr_left fun i _ => ?_))
    rw [Function.comp_apply, Nat.succ_eq_add_one, addr_succ]

theorem wordWrite_eq (toRegister : Bool) (addr : BitVec 12) (v : Word) :
    wordWrite toRegister addr v = if toRegister then registerWrite addr v else .hostRamWrite addr v := rfl

theorem wordRead_eq (fromRegister : Bool) (addr : BitVec 12) (s : State) :
    (wordRead fromRegister addr s).1 = if fromRegister then hostReadRegister addr s else (hostReadRam addr s).1 := by
  unfold wordRead
  split <;> rfl

/-- A word read leaves the part as it is unless it meets a dump (R75). -/
theorem wordRead_keeps {fromRegister : Bool} {s : State} (h : fromRegister = true ∨ ∀ r w, s.rqe.execution ≠ some ⟨r, .dumping w⟩)
    (addr : BitVec 12) : (wordRead fromRegister addr s).2 = s := by
  unfold wordRead
  split
  · rfl
  · next hram => exact congrArg Prod.snd (hostReadRam_idle addr (h.resolve_left hram))

theorem spiReadTransfer_eq {header : Half} {s : State} (n : Nat) (hread : header.getLsbD 15 = false)
    (h : header.getLsbD 14 = true ∨ ∀ r w, s.rqe.execution ≠ some ⟨r, .dumping w⟩) :
    spiReadTransfer header n s =
      (0 :: (List.range n).flatMap fun i => wordBytes
          (if header.getLsbD 14 then hostReadRegister (header.extractLsb' 0 12 + BitVec.ofNat 12 i) s
            else (hostReadRam (header.extractLsb' 0 12 + BitVec.ofNat 12 i) s).1), s) := by
  rw [spiReadTransfer, if_neg (by rw [hread]; decide), wordReads_eq (wordRead_keeps h)]
  simp only [List.flatMap_map, wordRead_eq]

/-- Settles O9: reads by `hostReadRam_idle` and `hostReadRam_writing`, transfers by their words one after another. -/
theorem hostReadsAndTransfers : Obligations.HostReadsAndTransfers := by
  refine ⟨⟨fun a s => hostReadRam_idle a, fun a s r w hm => hostReadRam_writing a hm, fun s =>
    ⟨rfl, rfl, rfl, rfl, rfl, fun a => hostReadRegister_other s⟩⟩, registerWrite_eq, fun header ws cut hwrite hcut => ?_,
    fun header bytes hread => ?_, fun header n s hread h => spiReadTransfer_eq n hread h, fun header s v t hread hram h => ?_, ?_⟩
  · rw [spiTransfer, if_pos hwrite, transferWords_flatMap cut hcut, wordWrites_eq]
    rfl
  · rw [spiTransfer, hread]
    rfl
  · have hword : wordRead false (header.extractLsb' 0 12) s = (v, t) := h
    rw [spiReadTransfer, if_neg (by rw [hread]; decide), hram, wordReads, hword]
    rfl
  · decide

end Sys2Proof.Machine
end

section
/-! PROOF. Refusals by kind and by range, CLEAR, and CAPTURE (R163, R166 to R170). -/

namespace Sys2Proof.Machine

open Sys2Proof.Safety

/-! ### REFUSED_KIND and REFUSED_RANGE -/

theorem unknownKind_iff (kind : Byte) : unknownKind kind = true ↔ kind = 0 ∨ 8 < kind.toNat := by
  simp [unknownKind]

theorem exec_refusedKind {s : State} {r : Request} (htaken : s.rqe.execution = some ⟨r, .taken⟩) (hkind : r.kind = 0 ∨ 8 < r.kind.toNat) :
    exec .refusedKind s = .next (finish r .refusedKind r.kind.toNat [] s) :=
  congrArg Host.Outcome.next (withTaken_runs (run := fun r t => finish r .refusedKind r.kind.toNat [] t) htaken
    ((unknownKind_iff r.kind).mpr hkind))

theorem exec_refusedKind_idle {s : State}
    (h : ∀ r, s.rqe.execution = some ⟨r, .taken⟩ → 1 ≤ r.kind.toNat ∧ r.kind.toNat ≤ 8) : exec .refusedKind s = .next s := by
  refine congrArg Host.Outcome.next (withTaken_idle fun r htaken => ?_)
  obtain ⟨hlow, hhigh⟩ := h r htaken
  have hknown : ¬(r.kind = 0 ∨ 8 < r.kind.toNat) := by
    rintro (hzero | habove)
    · simp [hzero] at hlow
    · omega
  exact Bool.eq_false_iff.mpr ((unknownKind_iff r.kind).not.mpr hknown)

theorem exec_refusedRange {s : State} {r : Request} {detail : Nat} (htaken : s.rqe.execution = some ⟨r, .taken⟩)
    (h : rangeCheck r = some detail) : exec .refusedRange s = .next (finish r .refusedRange detail [] s) := by
  have hrun := withTaken_runs (run := fun r t => finish r .refusedRange ((rangeCheck r).getD 0) [] t) htaken
    (belongs := fun r => (rangeCheck r).isSome) (by simp [h])
  rw [h] at hrun
  exact congrArg Host.Outcome.next hrun

theorem maskCheck_eq_some {mask : Word} {detail : Nat} (h : if 15 < mask.toNat then detail = 1 else mask = 0 ∧ detail = 2) :
    maskCheck mask = some detail := by
  unfold maskCheck
  split at h
  · next habove => rw [if_pos (show 16 ≤ _ from habove), h]
  · next hbelow => rw [if_neg (by omega), if_pos h.1, h.2]

theorem modeGoCheck_eq_some {r : Request} {detail : Nat} (h : if 3 < r.param1.toNat then detail = 1
    else r.param1 = 3 ∧ r.param2 ≠ 1 ∧ r.param2 ≠ 2 ∧ detail = 2) : modeGoCheck r = some detail := by
  unfold modeGoCheck
  split at h
  · next habove => rw [if_pos habove, h]
  · next hbelow =>
    obtain ⟨htarget, hone, htwo, rfl⟩ := h
    rw [if_neg hbelow, if_pos ⟨htarget, fun h => h.elim hone htwo⟩]

theorem channelOfCode_isNone (n : Nat) : (channelOfCode n).isNone = true ↔ n = 0 ∨ 3 < n := by
  unfold channelOfCode
  split
  case h_4 h1 h2 h3 =>
    have habove : n = 0 ∨ 3 < n := by grind
    simp [habove]
  all_goals simp

theorem channelCheck_eq_some {r : Request} {detail : Nat}
    (h : if r.param1.toNat = 0 ∨ 3 < r.param1.toNat then detail = 1 else 2 < r.param2.toNat ∧ detail = 2) :
    channelCheck r = some detail := by
  unfold channelCheck
  simp only [channelOfCode_isNone]
  split at h
  · next hchannel => rw [if_pos hchannel, h]
  · next hchannel => rw [if_neg hchannel, if_pos h.1, h.2]

/-- Settles O28: both rows are `finish_completes`; the first check that fails is the one `rangeCheck` names. -/
theorem requestRefusals : Obligations.RequestRefusals := by
  refine ⟨⟨fun s r htaken hm hslot hkind => ⟨_, exec_refusedKind htaken hkind, finish_completes _ _ hm hslot (Nat.zero_le _)⟩,
    fun s => exec_refusedKind_idle⟩, fun s r detail htaken hm hslot hcheck => ?_⟩
  suffices h : rangeCheck r = some detail from
    ⟨_, exec_refusedRange htaken h, finish_completes _ _ hm hslot (Nat.zero_le _)⟩
  unfold rangeCheck
  obtain ⟨hkind | hkind, h⟩ | ⟨hkind, h⟩ | ⟨hkind, habove, rfl⟩ | ⟨hkind, h⟩ := hcheck <;> rw [hkind]
  · exact maskCheck_eq_some h
  · exact maskCheck_eq_some h
  · exact modeGoCheck_eq_some h
  · exact if_pos habove
  · exact channelCheck_eq_some h

/-! ### CLEAR (R168) -/

theorem clearedHeader_eq (w : NoticeWriter) :
    ({ w with dropped := 0, readCountBad := false } : NoticeWriter).header = pack16 w.writeCount 0 :=
  congrArg (pack16 w.writeCount) (show u8 (bitOf false) ++ u8 0 = (0 : Half) by decide)

theorem clearHeader_eq (s : State) : clearHeader s = { s with
    ram := s.ram.writeWord headerWord (pack16 s.nw.writeCount 0)
    nw := { s.nw with dropped := 0, readCountBad := false } } := by
  rw [clearHeader, clearedHeader_eq]

theorem clearStickyLanes_eq (mask : Word) (s : State) :
    ifNamed mask 1 clearLanes (ifNamed mask 0 clearStickyFlags s) = { s with
      lanes := if mask.getLsbD 1 then s.lanes.mapEach fun _ x => x.cleared else s.lanes
      fcu := { s.fcu with sticky := if mask.getLsbD 0 then 0 else s.fcu.sticky } } := by
  unfold ifNamed names
  split <;> split <;> rfl

theorem clearCountsHeader_eq (mask : Word) (s : State) :
    ifNamed mask 3 clearHeader (ifNamed mask 2 clearCounts s) = { s with
      ram := if mask.getLsbD 3 then s.ram.writeWord headerWord (pack16 s.nw.writeCount 0) else s.ram
      alc := if mask.getLsbD 2 then s.alc.cleared else s.alc
      nw := if mask.getLsbD 3 then { s.nw with dropped := 0, readCountBad := false } else s.nw } := by
  unfold ifNamed names
  simp only [clearHeader_eq]
  split <;> split <;> rfl

/-- Every named option cleared, one block at a time. -/
theorem clearNamed_eq (mask : Word) (s : State) : clearNamed mask s = { s with
    ram := if mask.getLsbD 3 then s.ram.writeWord headerWord (pack16 s.nw.writeCount 0) else s.ram
    lanes := if mask.getLsbD 1 then s.lanes.mapEach fun _ x => x.cleared else s.lanes
    alc := if mask.getLsbD 2 then s.alc.cleared else s.alc
    fcu := { s.fcu with sticky := if mask.getLsbD 0 then 0 else s.fcu.sticky }
    nw := if mask.getLsbD 3 then { s.nw with dropped := 0, readCountBad := false } else s.nw } := by
  rw [clearNamed, clearCountsHeader_eq, clearStickyLanes_eq]

/-- A row of a taken CLEAR whose mask passes its check and names the row's option. -/
theorem clearNaming_of_named {r : Request} {k : Nat} (hkind : r.kind = 6) (hmask : r.param1.toNat < 16)
    (hk : r.param1.getLsbD k = true) : clearNaming k r = true := by
  have hnonzero : r.param1 ≠ 0 := by
    intro h
    simp [h] at hk
  have hcheck : maskCheck r.param1 = none := by
    rw [maskCheck, if_neg (by omega), if_neg hnonzero]
  simp [clearNaming, kindClear, hkind, hcheck, names, hk]

theorem applyClear_applied {r : Request} {s : State} (hm : s.ram.wf = true) (hslot : r.slot < 16) :
    ClearApplied r s (applyClear r s) := by
  have hheader : Stored s.ram (s.ram.writeWord headerWord (pack16 s.nw.writeCount 0)) 16 [pack16 s.nw.writeCount 0] :=
    Memory.writeWord_stored _ _ hm (by decide)
  have hwf : (clearNamed r.param1 s).ram.wf = true := by
    rw [clearNamed_eq]
    dsimp only
    split
    · exact hheader.1
    · exact hm
  have hdone := finish_completes .ok 0 (payload := []) hwf hslot (Nat.zero_le _)
  rw [clearNamed_eq] at hdone
  refine ⟨_, _, _, ?_, ?_, ?_, by rw [applyClear, clearNamed_eq]; exact hdone⟩
  · split
    · exact hheader
    · rfl
  · split
    · exact fun l => Lanes.get_mapEach _ _ l
    · rfl
  · split
    · exact ⟨s.alc.cleared_get, rfl⟩
    · rfl

/-- Settles O38: a row that the mask names runs `executeClear`, which applies the CLEAR at once, or holds it or applies it in the gap. -/
theorem clear : Obligations.Clear := by
  intro s r htaken hm hslot hkind hmask _
  have row {c : Instr} {k : Nat} (hrun : exec c s = .next (withTaken (clearNaming k) executeClear s))
      (hk : r.param1.getLsbD k = true) : exec c s = .next (executeClear r s) := by
    rw [hrun, withTaken_runs htaken (clearNaming_of_named hkind hmask hk)]
  refine ⟨executeClear r s, row rfl, row rfl, row rfl, row rfl, ?_⟩
  unfold executeClear gapRequest names
  split
  · next hwaits => rw [if_pos hwaits.1, if_neg (by simp [Option.isSome_iff_ne_none.mp hwaits.2])]; rfl
  · next happlies =>
    have hnow : (if r.param1.getLsbD 0 = true then if s.fcu.inFlight.isNone = true then applyClear r s else setPhase r .waitingGap s
        else applyClear r s) = applyClear r s := by
      split
      · next hsticky => exact if_pos (by simpa [hsticky] using happlies)
      · rfl
    rw [hnow]
    exact applyClear_applied hm hslot

/-! ### CAPTURE (R169) -/

theorem exec_capture {s : State} {r : Request} (htaken : s.rqe.execution = some ⟨r, .taken⟩) (hkind : r.kind = 8) :
    exec .capture s = .next (requestCapture r s) :=
  congrArg Host.Outcome.next (withTaken_runs (run := requestCapture) htaken (beq_iff_eq.mpr hkind))

theorem longEntryOf_isSome (long : List LongEntry) (owner : LongOwner) :
    (longEntryOf long owner).isSome = true ↔ ∃ e ∈ long, e.owner = owner := by
  simp [longEntryOf]

/-- Settles O41: the checks in the order of `requestCapture`. -/
theorem captureRequest : Obligations.CaptureRequest := by
  intro s r htaken hm hslot hkind
  have hcount : r.param1.toNat < 1 ↔ r.param1 = 0 := by
    rw [Nat.lt_one_iff, BitVec.toNat_eq]
    rfl
  refine ⟨_, exec_capture htaken hkind, ?_⟩
  unfold requestCapture
  simp only [hcount, longEntryOf_isSome]
  split
  · exact finish_completes _ _ hm hslot (Nat.zero_le _)
  split
  · exact finish_completes _ _ hm hslot (Nat.zero_le _)
  · exact stayTaken_stays _ _ _

end Sys2Proof.Machine
end

section
/-! PROOF. The notice list never overwrites an unread record (R176). -/

namespace Sys2Proof.Machine

open Sys2Proof.Safety

/-! ### Counts modulo 65536 -/

/-- One more record written, where one more fits the count. -/
theorem toNat_succ_sub {write read : Half} (h : (write - read).toNat < 64) :
    (write + 1 - read).toNat = (write - read).toNat + 1 := by
  bv_omega

/-- The ring position next written holds no unread record while fewer than 64 are unread: 64 divides 65536, the modulus of the
counts. -/
theorem unread_position_ne {write read : Half} {d : Nat} (hd : d < (write - read).toNat) (hroom : (write - read).toNat < 64) :
    (read + BitVec.ofNat 16 d).toNat % 64 ≠ write.toNat % 64 := by
  bv_omega

/-! ### What stands beside a notice's words -/

/-- The header's first word is the one word of it that a notice writes: the host's read count and the list lie after it (R183). -/
theorem header_stored_readWord {m m' : Memory} {w : Word} (h : Stored m m' headerWord [w]) {j : Nat} (hj : headerWord < j) :
    m'.readWord j = m.readWord j := by
  rw [stored_readWord h, if_neg]
  simp only [List.length_singleton]
  omega

/-- A record is written in its own list position alone. -/
theorem record_stored_readWord {m m' : Memory} {p j : Nat} {w0 w1 w2 w3 : Word} (h : Stored m m' (noticeWord p) [w0, w1, w2, w3])
    (hj : ¬(noticeWord p ≤ j ∧ j < noticeWord p + 4)) : m'.readWord j = m.readWord j := by
  rw [stored_readWord h]
  exact if_neg hj

theorem headerWord_lt_noticeWord (p k : Nat) : headerWord + 1 < noticeWord p + k := by
  unfold headerWord noticeWord
  omega

theorem noticeWord_disjoint {p q k : Nat} (h : p ≠ q) (hk : k < 4) :
    ¬(noticeWord q ≤ noticeWord p + k ∧ noticeWord p + k < noticeWord q + 4) := by
  unfold noticeWord
  omega

/-! ### The statement -/

/-- Settles O49: of the three outcomes of an offered notice only the last writes the list, at a position that is not unread. -/
theorem unreadNoticesKept : Obligations.UnreadNoticesKept := by
  intro kind subject first second s hm hocc
  have htaken := offerNotice_taken kind subject first second hm
  generalize offerNotice kind subject first second s = t at htaken
  unfold NoticeTaken at htaken
  split at htaken
  case isTrue =>
    subst htaken
    exact ⟨hocc, fun _ _ _ _ => rfl⟩
  split at htaken
  case isTrue =>
    obtain ⟨m, hheader, rfl⟩ := htaken
    have hread : readCountOf m = readCountOf s.ram := congrArg lowHalf (header_stored_readWord hheader (Nat.lt_succ_self _))
    refine ⟨?_, fun d k _ _ => header_stored_readWord hheader (Nat.lt_of_succ_lt (headerWord_lt_noticeWord _ k))⟩
    rwa [occupancy, hread]
  case isFalse hroom =>
    obtain ⟨m, m', hrecord, hheader, rfl⟩ := htaken
    have hroom : (s.nw.writeCount - readCountOf s.ram).toNat < 64 := Nat.lt_of_not_le hroom
    have hread : readCountOf m' = readCountOf s.ram := congrArg lowHalf <|
      (header_stored_readWord hheader (Nat.lt_succ_self _)).trans
        (record_stored_readWord hrecord fun h => absurd h.1 (Nat.not_le_of_lt (headerWord_lt_noticeWord _ 0)))
    refine ⟨?_, fun d k hd hk => ?_⟩
    · rw [occupancy, hread]
      exact (toNat_succ_sub hroom).trans_le hroom
    · exact (header_stored_readWord hheader (Nat.lt_of_succ_lt (headerWord_lt_noticeWord _ k))).trans
        (record_stored_readWord hrecord (noticeWord_disjoint (unread_position_ne hd hroom) hk))

end Sys2Proof.Machine
end

section
/-! PROOF. What steps 1 to 4 of a completion store: their notices and their answers to long-running requests, and nothing else
(R34). -/

namespace Sys2Proof.Machine

/-! ### Notices and answers -/

/-- Word `i` is the notice header's first word, or lies in the notice list. -/
def NoticePlace (i : Nat) : Prop := i = 16 ∨ 960 ≤ i ∧ i < 1216

/-- Word `i` is one of those that an answer of at most two payload words may store in the slot of a long-running request. -/
def AnswerPlace (s : State) (i : Nat) : Prop := ∃ e ∈ s.rqe.long, slotWord e.slot ≤ i ∧ i < slotWord e.slot + 6

/-- From `s` to `t` notices are offered and long-running requests answered, and nothing else is stored; nothing is published, and
the running capture is as it was. -/
structure Reports (s t : State) : Prop where
  long : t.rqe.long ⊆ s.rqe.long
  publications : t.fcu.publications = s.fcu.publications
  capture : t.fcu.capture = s.fcu.capture
  bytes : ∀ a, ¬NoticePlace (a / 4) → ¬AnswerPlace s (a / 4) → t.ram.readByte a = s.ram.readByte a

theorem AnswerPlace.mono {s t : State} (h : t.rqe.long ⊆ s.rqe.long) {i : Nat} : AnswerPlace t i → AnswerPlace s i :=
  fun ⟨e, he, hplace⟩ => ⟨e, h he, hplace⟩

theorem Reports.ofSame {s t : State} (hram : t.ram = s.ram) (hrqe : t.rqe = s.rqe)
    (hpublications : t.fcu.publications = s.fcu.publications) (hcapture : t.fcu.capture = s.fcu.capture) : Reports s t :=
  ⟨by rw [hrqe]; exact List.Subset.refl _, hpublications, hcapture, fun _ _ _ => by rw [hram]⟩

theorem Reports.refl (s : State) : Reports s s := .ofSame rfl rfl rfl rfl

theorem Reports.trans {s t u : State} (hst : Reports s t) (htu : Reports t u) : Reports s u where
  long := List.Subset.trans htu.long hst.long
  publications := htu.publications.trans hst.publications
  capture := htu.capture.trans hst.capture
  bytes a hnotice hanswer :=
    (htu.bytes a hnotice fun h => hanswer (h.mono hst.long)).trans (hst.bytes a hnotice hanswer)

theorem Reports.ite {p : Prop} [Decidable p] {s t u : State} (ht : Reports s t) (hu : Reports s u) :
    Reports s (if p then t else u) := by
  split
  · exact ht
  · exact hu

theorem noticeOutcome_readByte (kind : NoticeKind) (subject : Nat) (first second : Word) (s : State) {a : Nat}
    (ha : ¬NoticePlace (a / 4)) : (noticeOutcome kind subject first second s).1.readByte a = s.ram.readByte a := by
  have header (m : Memory) (w : Word) : (m.writeWord headerWord w).readByte a = m.readByte a := by
    refine Memory.readByte_writeWord_ne m w ?_
    unfold NoticePlace at ha
    unfold headerWord
    omega
  unfold noticeOutcome writeNotice
  split
  · split
    · exact header _ _
    · refine (header _ _).trans (Memory.readByte_writeWords_ne _ _ _ _ ?_)
      unfold NoticePlace at ha
      simp only [noticeWord, noticeRecord, List.length_cons, List.length_nil]
      omega
  · rfl

theorem offerNotice_reports (kind : NoticeKind) (subject : Nat) (first second : Word) (s : State) :
    Reports s (offerNotice kind subject first second s) :=
  ⟨List.Subset.refl _, rfl, rfl, fun _ hnotice _ => noticeOutcome_readByte kind subject first second s hnotice⟩

theorem completedSlot_readByte (m : Memory) {slot : Nat} (kind : Byte) (tag : Half) (code : ResultCode) (detail : Nat)
    {payload : List Word} (hp : payload.length ≤ 2) {a : Nat} (ha : ¬(slotWord slot ≤ a / 4 ∧ a / 4 < slotWord slot + 6)) :
    (completedSlot m slot kind tag code detail payload).readByte a = m.readByte a := by
  unfold completedSlot
  rw [Memory.readByte_writeWord_ne _ _ (by omega), Memory.readByte_writeWord_ne _ _ (by omega),
    Memory.readByte_writeWords_ne _ _ _ _ (by omega)]

theorem completeLong_reports (owner : LongOwner) (code : ResultCode) (detail : Nat) {payload : List Word}
    (hp : payload.length ≤ 2) (s : State) : Reports s (completeLong owner code detail payload s) := by
  refine ⟨?_, by simp, by simp, fun a _ hanswer => ?_⟩
  · rw [completeLong_long]
    exact List.filter_subset_self _
  · unfold completeLong
    split
    · rfl
    · next e he =>
      exact completedSlot_readByte _ _ _ _ _ hp fun hplace => hanswer ⟨e, List.mem_of_find?_eq_some he, hplace⟩

theorem changeState_reports (new : OpState) (reason : StateReason) (s : State) : Reports s (changeState new reason s) := by
  have offered : Reports s (offerNotice .state new.code (u32 s.sc.op.code) (u32 reason.code) { s with sc := s.sc.enter new }) :=
    Reports.trans (t := { s with sc := s.sc.enter new }) (.ofSame rfl rfl rfl rfl) (offerNotice_reports _ _ _ _ _)
  exact .ite (offered.trans (.ofSame rfl rfl rfl rfl)) offered

/-! ### Deposits and the unit's notices: steps 2 and 3 -/

theorem supersede_reports (c : ChannelId) (x : Channel) (old msg : Message) (s : State) :
    Reports s (supersede c x old msg s) := by
  have held (y : Channel) : Reports s (setChannel c y s) := .ofSame rfl rfl rfl rfl
  exact .ite ((held _).trans (offerNotice_reports _ _ _ _ _)) (held _)

theorem deposit_reports (c : ChannelId) (msg : Message) (s : State) : Reports s (deposit c msg s) := by
  refine .ite ?_ (.refl s)
  unfold dueDeposit
  dsimp only
  split
  case h_4 | h_5 =>
    split
    · exact supersede_reports _ _ _ _ _
    · exact .ofSame rfl rfl rfl rfl
  all_goals exact .ofSame rfl rfl rfl rfl

theorem makeDeposits_reports (c : Computation) (r : Results) (s : State) : Reports s (makeDeposits c r s) := by
  unfold makeDeposits
  split
  · exact .refl s
  · exact (((deposit_reports _ _ _).trans (deposit_reports _ _ _)).trans (deposit_reports _ _ _)).trans
      (.ofSame rfl rfl rfl rfl)

theorem verdictNotices_reports (old new : Byte) (s : State) : Reports s (verdictNotices old new s) := by
  have edges (vs : List Nat) : ∀ s, Reports s (vs.foldl (fun t v => verdictNotice old new v t) s) := by
    induction vs with
    | nil => exact Reports.refl
    | cons v rest ih => exact fun s => Reports.trans (.ite (.refl s) (offerNotice_reports _ _ _ _ _)) (ih _)
  exact edges _ s

theorem unitNotices_reports (c : Computation) (r : Results) (s : State) : Reports s (unitNotices c r s) := by
  have hescalation : Reports s (escalationNotice c r s) := .ite (offerNotice_reports _ _ _ _ _) (.refl s)
  have hgrade (t : State) : Reports t (gradeNotice r t) := .ite (.refl t) (offerNotice_reports _ _ _ _ _)
  exact ((hescalation.trans (hgrade _)).trans (verdictNotices_reports _ _ _)).trans (.ofSame rfl rfl rfl rfl)

/-! ### The report: step 4 -/

/-- The notice and the change of state at a calibration's end, the frame count and the sums set to 0 between them. -/
theorem announced_reports (kind : NoticeKind) (subject : Nat) (first second : Word) (c : StateController) (new : OpState)
    (reason : StateReason) (s : State) :
    Reports s (changeState new reason { offerNotice kind subject first second s with sc := c }) := by
  have cleared (t : State) : Reports t { t with sc := c } := .ofSame rfl rfl rfl rfl
  exact ((offerNotice_reports kind subject first second s).trans (cleared _)).trans (changeState_reports _ _ _)

theorem failCalibration_reports (why : CalFailure) (target : OpState) (reason : StateReason) (s : State) :
    Reports s (failCalibration why target reason s) :=
  (completeLong_reports _ _ _ (Nat.le_of_ble_eq_true rfl) s).trans (announced_reports _ _ _ _ _ _ _ _)

theorem succeedCalibration_reports (avg : CalSums) (s : State) : Reports s (succeedCalibration avg s) := by
  have calibrated : Reports s { s with fcu := s.fcu.calibrated avg } := .ofSame rfl rfl rfl rfl
  exact (calibrated.trans (completeLong_reports _ _ _ (Nat.le_of_ble_eq_true rfl) _)).trans (announced_reports _ _ _ _ _ _ _ _)

theorem calibrationFrame_reports (p : Snapshot) (s : State) : Reports s (calibrationFrame p s) := by
  have accumulated : Reports s { s with sc := s.sc.accumulate p.imu } := .ofSame rfl rfl rfl rfl
  exact .ite (failCalibration_reports _ _ _ _) <| .ite (failCalibration_reports _ _ _ _) <| .ite accumulated <|
    .ite (accumulated.trans (failCalibration_reports _ _ _ _)) (accumulated.trans (succeedCalibration_reports _ _))

theorem recoverFromLimp_reports (report : LimpReport) (s : State) : Reports s (recoverFromLimp report s) := by
  have counted : Reports s { s with sc := { s.sc with recovery := recoveryAfter report s.sc.recovery } } := .ofSame rfl rfl rfl rfl
  exact .ite (counted.trans (changeState_reports _ _ _)) counted

theorem takeReport_reports (c : Computation) (r : Results) (s : State) : Reports s (takeReport c r s) := by
  have stored : Reports s (storeReport c r s) := .ofSame rfl rfl rfl rfl
  rw [takeReport_eq]
  cases s.sc.op with
  | dormant | standby => exact stored
  | calibrating => exact .ite (stored.trans (calibrationFrame_reports _ _)) stored
  | active => exact .ite (stored.trans (changeState_reports _ _ _)) stored
  | limp => exact stored.trans (recoverFromLimp_reports _ _)

theorem throughReport_reports (c : Computation) (r : Results) (s : State) : Reports s (throughReport c r s) := by
  have first : Reports s { s with fcu := s.fcu.step1 r } := .ofSame rfl rfl rfl rfl
  exact ((first.trans (makeDeposits_reports c r _)).trans (unitNotices_reports c r _)).trans (takeReport_reports c r _)

theorem throughReport_wf (c : Computation) (r : Results) {s : State} (hm : s.ram.wf = true) :
    (throughReport c r s).ram.wf = true :=
  wf_storable.takeReport c r <| wf_storable.unitNotices c r <|
    wf_storable.makeDeposits (s := { s with fcu := s.fcu.step1 r }) c r hm

end Sys2Proof.Machine
end

section
/-! PROOF. The live page after a completion, word by word, and the words of the Exchange RAM that a completion stores (R173, R174,
R185, R34). -/

namespace Sys2Proof.Machine

/-! ### Step 5: the page -/

/-- A publication's stores: the counter odd, the body, the counter even (R173). -/
def writePage (m : Memory) (publications : Word) (body : List Word) : Memory :=
  ((m.writeWord pageWord (publications + 1)).writeWords (pageWord + 1) body).writeWord pageWord (publications + 2)

theorem publish_eq (c : Computation) (r : Results) (s : State) : publish c r s = { s with
    ram := writePage s.ram s.fcu.publications (pageBody c r s)
    fcu := { s.fcu with publications := s.fcu.publications + 2 }
    xp := s.xp.raise liveNewBit } := rfl

section
variable {m : Memory} {body : List Word} (hbody : body.length = 63) (publications : Word)
include hbody

theorem writePage_readByte {a : Nat} (ha : ¬(128 ≤ a / 4 ∧ a / 4 < 192)) :
    (writePage m publications body).readByte a = m.readByte a := by
  have counter (m : Memory) (w : Word) : (m.writeWord pageWord w).readByte a = m.readByte a := by
    refine Memory.readByte_writeWord_ne m w ?_
    unfold pageWord
    omega
  refine (counter _ _).trans ((Memory.readByte_writeWords_ne body _ (pageWord + 1) a ?_).trans (counter _ _))
  unfold pageWord
  omega

theorem writePage_readWord (hm : m.wf = true) : (writePage m publications body).readWord 128 = publications + 2 ∧
    ∀ k, k < 63 → (writePage m publications body).readWord (129 + k) = body.getD k 0 := by
  have hodd := Memory.writeWord_wf pageWord (publications + 1) hm
  refine ⟨Memory.readWord_writeWord_same _ (by decide) (Memory.writeWords_wf _ _ hodd), fun k hk => ?_⟩
  refine (Memory.readWord_writeWord_ne _ _ ?_).trans (Memory.readWord_writeWords_at body (pageWord + 1) k hodd ?_ ?_)
  · unfold pageWord
    omega
  · omega
  · unfold pageWord Config.ramWords
    omega

end

/-- The page's body is read from the State Controller, the ALC, the lanes and the FCU, of which it takes neither the publications
nor the computation in flight. -/
theorem pageBody_congr (c : Computation) (r : Results) {s t : State} {n : Word} {q : Option Computation} (hsc : t.sc = s.sc)
    (halc : t.alc = s.alc) (hlanes : t.lanes = s.lanes) (hfcu : t.fcu = { s.fcu with publications := n, inFlight := q }) :
    pageBody c r t = pageBody c r s := by
  simp only [pageBody, captureItem, hsc, halc, hlanes, hfcu]

/-- The words of the page without a field (R182). -/
theorem pageBody_unused (c : Computation) (r : Results) (s : State) {k : Nat} (hk : 23 ≤ k) : (pageBody c r s).getD k 0 = 0 := by
  rw [pageBody, List.getD_append_right _ _ _ _ hk]
  exact List.getElem?_getD_replicate_default_eq _ _ _

/-! ### Step 6: the record -/

theorem recordCapture_fcu (c : Computation) (r : Results) (s : State) :
    (recordCapture c r s).fcu = { s.fcu with capture := (recordCapture c r s).fcu.capture } := by
  simp only [recordCapture]
  repeat' split
  all_goals simp

/-- The record is written into the capture's next entry, and the request of a capture that ends is answered. -/
theorem recordCapture_readByte (c : Computation) (r : Results) (s : State) {a : Nat}
    (hentry : ∀ k, s.fcu.capture = some k → ¬(captureWord k.next ≤ a / 4 ∧ a / 4 < captureWord k.next + 16))
    (hnotice : ¬NoticePlace (a / 4)) (hanswer : ¬AnswerPlace s (a / 4)) :
    (recordCapture c r s).ram.readByte a = s.ram.readByte a := by
  unfold recordCapture
  split
  · rfl
  · next k hk =>
    have record : (s.ram.writeWords (captureWord k.next) (frameRecord c r s.sc.op)).readByte a = s.ram.readByte a := by
      have hplace := hentry k hk
      refine Memory.readByte_writeWords_ne _ _ _ _ ?_
      rw [show (frameRecord c r s.sc.op).length = 16 from rfl]
      omega
    split
    · rfl
    dsimp only
    split
    · exact record
    · have ended := completeLong_reports .capture .ok k.count (payload := capturePayload (k.advanced c.frame))
        (Nat.le_of_ble_eq_true rfl) { s with
          ram := s.ram.writeWords (captureWord k.next) (frameRecord c r s.sc.op), fcu := { s.fcu with capture := none } }
      exact (ended.bytes a hnotice hanswer).trans record

/-- The record and the answer lie beyond the page. -/
theorem recordCapture_page (c : Computation) (r : Results) (s : State) {i : Nat} (hlow : 128 ≤ i) (hhigh : i < 192) :
    (recordCapture c r s).ram.readWord i = s.ram.readWord i := by
  refine Memory.readWord_congr fun a ha => recordCapture_readByte c r s (fun k _ => ?_) ?_ ?_
  · unfold captureWord
    omega
  · unfold NoticePlace
    omega
  · rintro ⟨e, -, hplace, -⟩
    unfold slotWord at hplace
    omega

theorem raise_keeps {p : ExchangePort} {i : Nat} (bit : BitVec 7) (h : p.summary.getLsbD i = true) :
    (p.raise bit).summary.getLsbD i = true := by
  simp [ExchangePort.raise, portWith, h]

theorem completeLong_keeps_summary (owner : LongOwner) (code : ResultCode) (detail : Nat) (payload : List Word) {s : State}
    {i : Nat} (h : s.xp.summary.getLsbD i = true) : (completeLong owner code detail payload s).xp.summary.getLsbD i = true := by
  unfold completeLong
  split
  · exact h
  · exact raise_keeps reqDoneBit h

theorem recordCapture_keeps_summary (c : Computation) (r : Results) {s : State} {i : Nat} (h : s.xp.summary.getLsbD i = true) :
    (recordCapture c r s).xp.summary.getLsbD i = true := by
  simp only [recordCapture]
  split
  · exact h
  split
  · exact h
  split
  · exact h
  · exact completeLong_keeps_summary _ _ _ _ h

/-! ### The completion as a whole -/

/-- A completion once its report is judged: the publication, the record, and no computation in flight any more. -/
theorem completeComputation_eq {c : Computation} {s u : State} (hu : throughReport c (compute c s.table) s = u) :
    completeComputation c s = { recordCapture c (compute c s.table) (publish c (compute c s.table) u) with
      fcu := { (recordCapture c (compute c s.table) (publish c (compute c s.table) u)).fcu with inFlight := none } } := by
  subst hu
  rfl

theorem completeComputation_fcu {c : Computation} {s u : State} (hu : throughReport c (compute c s.table) s = u) :
    (completeComputation c s).fcu = { u.fcu with
      publications := u.fcu.publications + 2, capture := (completeComputation c s).fcu.capture, inFlight := none } := by
  rw [completeComputation_eq hu]
  dsimp only
  rw [recordCapture_fcu, publish_eq]

/-- What a completion stores: notices, answers, the page and the capture's next entry. -/
theorem completeComputation_readByte (c : Computation) (s : State) {a : Nat} (hnotice : ¬NoticePlace (a / 4))
    (hanswer : ¬AnswerPlace s (a / 4)) (hpage : ¬(128 ≤ a / 4 ∧ a / 4 < 192))
    (hentry : ∀ k, s.fcu.capture = some k → ¬(captureWord k.next ≤ a / 4 ∧ a / 4 < captureWord k.next + 16)) :
    (completeComputation c s).ram.readByte a = s.ram.readByte a := by
  obtain ⟨u, hu⟩ : ∃ u, throughReport c (compute c s.table) s = u := ⟨_, rfl⟩
  obtain ⟨hlong, -, hcapture, hbytes⟩ := hu ▸ throughReport_reports c (compute c s.table) s
  rw [completeComputation_eq hu]
  refine (recordCapture_readByte c _ _ (fun k hk => hentry k ?_) hnotice fun h => hanswer ?_).trans ?_
  · rwa [publish_eq, hcapture] at hk
  · exact AnswerPlace.mono (by rwa [publish_eq]) h
  · rw [publish_eq, ← hbytes a hnotice hanswer]
    dsimp only
    exact writePage_readByte (pageBody_length c _ u) _ hpage

/-- The part that the page of a completion shows: as the completion leaves it, but with the capture it found. -/
def shownState (c : Computation) (s : State) : State :=
  { completeComputation c s with
    lanes := s.lanes, fcu := { (completeComputation c s).fcu with capture := s.fcu.capture } }

theorem completeComputation_page (c : Computation) {s : State} (hm : s.ram.wf = true) :
    (completeComputation c s).ram.readWord 128 = s.fcu.publications + 2 ∧
      ∀ k, k < 63 → (completeComputation c s).ram.readWord (129 + k) =
        (pageBody c (compute c s.table) (shownState c s)).getD k 0 := by
  obtain ⟨u, hu⟩ : ∃ u, throughReport c (compute c s.table) s = u := ⟨_, rfl⟩
  obtain ⟨-, hpublications, hcapture, -⟩ := hu ▸ throughReport_reports c (compute c s.table) s
  have hwf : u.ram.wf = true := hu ▸ throughReport_wf c _ hm
  obtain ⟨hcounter, hwords⟩ := writePage_readWord (pageBody_length c (compute c s.table) u) u.fcu.publications hwf
  have hshown : pageBody c (compute c s.table) (shownState c s) = pageBody c (compute c s.table) u := by
    have hfcu := completeComputation_fcu hu
    refine pageBody_congr (n := u.fcu.publications + 2) (q := none) c _ ?_ ?_ ?_ ?_
    · exact (completeComputation_afterReport c hu).1
    · simp [shownState, completeComputation_eq hu]
    · simp [shownState, ← hu]
    · rw [shownState, hfcu, ← hcapture]
  have hkept {i : Nat} (hlow : 128 ≤ i) (hhigh : i < 192) : (completeComputation c s).ram.readWord i =
      (writePage u.ram u.fcu.publications (pageBody c (compute c s.table) u)).readWord i := by
    rw [completeComputation_eq hu]
    exact (recordCapture_page c _ _ hlow hhigh).trans (by rw [publish_eq])
  refine ⟨?_, fun k hk => ?_⟩
  · rw [hkept (by decide) (by decide), hcounter, hpublications]
  · rw [hkept (by omega) (by omega), hwords k hk, hshown]

theorem completeComputation_liveNew (c : Computation) (s : State) :
    (completeComputation c s).xp.summary.getLsbD 2 = true := by
  obtain ⟨u, hu⟩ : ∃ u, throughReport c (compute c s.table) s = u := ⟨_, rfl⟩
  rw [completeComputation_eq hu, publish_eq]
  refine recordCapture_keeps_summary c _ ?_
  simp [ExchangePort.raise, portWith, liveNewBit]

/-- The capture item counts this completion's record (R174; notes/assumptions/10.md). -/
theorem captureItem_word (f : FrameUnit) : pack8 (u8 (captureItem f).1) (u8 (captureItem f).2) 0 0 =
    match f.capture with
    | none => 0
    | some k => pack8 1 (u8 (if k.skipCurrent then k.next else k.next + 1)) 0 0 := by
  unfold captureItem
  cases f.capture <;> rfl

/-- Settles O19: the page's words as `pageBody` lists them. -/
theorem completionPage : Obligations.CompletionPage := by
  rintro s c r hc rfl hm
  obtain ⟨hcounter, hword⟩ := completeComputation_page c hm
  refine ⟨_, exec_computationComplete hc, completeComputation_liveNew c s, hcounter, ?_⟩
  refine ⟨hword 0 (by decide), hword 1 (by decide), hword 2 (by decide), hword 3 (by decide), hword 4 (by decide),
    hword 5 (by decide), hword 6 (by decide), hword 7 (by decide), hword 8 (by decide), hword 9 (by decide),
    (hword 10 (by decide)).trans (captureItem_word _), hword 11 (by decide), hword 12 (by decide), hword 13 (by decide),
    hword 14 (by decide), hword 15 (by decide), fun ch => ?_, hword 22 (by decide), fun i hlow hhigh => ?_,
    fun a hheader hpage hlist hentry hslots => ?_⟩
  · cases ch with
    | engine => exact ⟨hword 16 (by decide), hword 17 (by decide)⟩
    | brake => exact ⟨hword 18 (by decide), hword 19 (by decide)⟩
    | trailer => exact ⟨hword 20 (by decide), hword 21 (by decide)⟩
  · obtain ⟨k, rfl⟩ := Nat.exists_eq_add_of_le (show 129 ≤ i by omega)
    rw [hword k (by omega), pageBody_unused _ _ _ (by omega)]
  · exact completeComputation_readByte c s (not_or.mpr ⟨hheader, hlist⟩) (fun ⟨e, he, hplace⟩ => hslots e he hplace) hpage
      hentry

end Sys2Proof.Machine
end

section
/-! PROOF. The standing records as an ADOPT reads them: the bytes of each field, its clamp, the count of clamped fields, and how the
link record and the lane record are taken (R184, R167, R14, R37, R53, R93, R104, R105, R132, R151, R175). -/

namespace Sys2Proof.Machine

open Sys2Proof.Safety

/-! ### Clamps and clamped fields -/

theorem clampedFields_eq_zero_iff (fs : List (Nat × Nat)) : clampedFields fs = 0 ↔ ∀ f ∈ fs, f.2 = f.1 := by
  simp only [clampedFields, List.countP_eq_zero, bne_iff_ne, ne_eq, not_not, eq_comm (a := Prod.fst _)]

theorem clampNat_zero (hi v : Nat) : clampNat 0 hi v = min hi v :=
  (clampNat_eq_within v (Nat.zero_le hi)).trans (within_zero hi v)

/-! ### The mode record (R37, R53, R93, R104, R132, R175) -/

theorem clampPeriod_eq (v : Nat) : clampPeriod v = if v ≤ 1 then 1 else if v = 2 then 2 else 4 := by
  unfold clampPeriod
  repeat' split
  all_goals omega

/-- The frame periods that R37's clamp leaves as they are. -/
theorem clampPeriod_fixed_iff (v : Nat) : clampPeriod v = v ↔ v = 1 ∨ v = 2 ∨ v = 4 := by
  refine ⟨fun h => by simpa only [h] using clampPeriod_cases v, ?_⟩
  rintro (rfl | rfl | rfl) <;> rfl

/-- The adopted mode record's fields, v_acc_max clamped against the clamped v_kin_min (R53). -/
theorem RawMode.adopted_eq (w : RawMode) : w.adopted =
    ⟨w.escalationMask, within 1 15 w.latchCount, within 1000 6500 w.leanWarn, min 4095 w.alpha, within 100 3000 w.vKinMin,
      min (within 100 3000 w.vKinMin) w.vAccMax, within 100 3000 w.slipVMin, within 1 4095 w.ki, within 1 255 w.rel,
      min 3 w.modeGrade, within 1 255 w.episodeWeight, within 100 65535 w.restoreFrames, within 1 65535 w.recoveryFrames,
      min 1024 w.fallbackTorque, within 500 12000 w.fallbackBrake, within 64 230 w.fallbackFrontShare, u8 w.noticeMask⟩ := by
  simp (disch := decide) only [RawMode.adopted, clampNat_zero, clampNat_eq_within, within_zero]

/-- The fields of a mode record that a clamp may change, as written and as adopted. -/
def RawMode.fields (w : RawMode) : List (Nat × Nat) :=
  [(w.framePeriod, clampPeriod w.framePeriod), (w.latchCount, w.adopted.latchCount), (w.leanWarn, w.adopted.leanWarn),
    (w.alpha, w.adopted.alpha), (w.vKinMin, w.adopted.vKinMin), (w.vAccMax, w.adopted.vAccMax),
    (w.slipVMin, w.adopted.slipVMin), (w.ki, w.adopted.ki), (w.rel, w.adopted.rel), (w.modeGrade, w.adopted.modeGrade),
    (w.episodeWeight, w.adopted.episodeWeight), (w.restoreFrames, w.adopted.restoreFrames),
    (w.recoveryFrames, w.adopted.recoveryFrames), (w.fallbackTorque, w.adopted.fallbackTorque),
    (w.fallbackBrake, w.adopted.fallbackBrake), (w.fallbackFrontShare, w.adopted.fallbackFrontShare),
    (w.noticeMask, w.noticeMask % 256)]

theorem RawMode.clamps_eq (w : RawMode) : w.clamps = clampedFields w.fields := by
  have hmask : w.adopted.noticeMask.toNat = w.noticeMask % 256 := BitVec.toNat_ofNat _ _
  simp only [RawMode.clamps, RawMode.fields, hmask, clampedFields_cons, clampedFields_nil, Nat.add_assoc, Nat.add_zero]

/-- No field is counted exactly when the record is adopted as it is written (R167, R175): the listed fields' equations are those of
the adopted record, the escalation mask and the kept bits of the notice mask never differing. -/
theorem RawMode.clamps_eq_zero_iff (w : RawMode) :
    w.clamps = 0 ↔ (w.framePeriod = 1 ∨ w.framePeriod = 2 ∨ w.framePeriod = 4) ∧ w.noticeMask < 256 ∧
      w.adopted = ⟨w.escalationMask, w.latchCount, w.leanWarn, w.alpha, w.vKinMin, w.vAccMax, w.slipVMin, w.ki, w.rel,
        w.modeGrade, w.episodeWeight, w.restoreFrames, w.recoveryFrames, w.fallbackTorque, w.fallbackBrake,
        w.fallbackFrontShare, u8 w.noticeMask⟩ := by
  have hescalation : w.adopted.escalationMask = w.escalationMask := rfl
  have hnotice : w.adopted.noticeMask = u8 w.noticeMask := rfl
  rw [RawMode.clamps_eq, clampedFields_eq_zero_iff]
  simp only [RawMode.fields, List.forall_mem_cons, clampPeriod_fixed_iff, Nat.mod_eq_iff_lt (show 256 ≠ 0 by decide)]
  cases hw : w.adopted
  simp only [hw] at hescalation hnotice
  simp only [ModeRecord.mk.injEq, hescalation, hnotice]
  tauto

/-! ### The load record (R105) -/

theorem loadClassOfCode_code {n : Nat} (h : n ≤ 3) : (loadClassOfCode n).code = n := by
  interval_cases n <;> rfl

theorem loadRecordOf_class (m : Memory) : (loadRecordOf m).cls.code = min 3 (m.u8At 0x140) := by
  rw [← clampNat_zero]
  exact loadClassOfCode_code (clampNat_le _ (by decide))

theorem rawFactors_clamped (m : Memory) (c : Nat) : (rawFactors m c).clamped =
    ⟨within 128 256 (m.u16At (0x144 + 4 * c)), within 128 256 (m.u16At (0x146 + 4 * c))⟩ := by
  simp (disch := decide) only [ClassFactors.clamped, rawFactors, clampNat_eq_within]

/-- The clamped fields of the load record, the class code before the factors of each class (R105, R167). -/
theorem loadRecordClamps_eq (m : Memory) : loadRecordClamps m = clampedFields ((m.u8At 0x140, min 3 (m.u8At 0x140)) ::
    (List.range 4).flatMap fun c => [(m.u16At (0x144 + 4 * c), (rawFactors m c).clamped.tf),
      (m.u16At (0x146 + 4 * c), (rawFactors m c).clamped.bf)]) := by
  have hclass (c : Nat) : clampedFields [(m.u16At (0x144 + 4 * c), (rawFactors m c).clamped.tf),
      (m.u16At (0x146 + 4 * c), (rawFactors m c).clamped.bf)] = (rawFactors m c).clamps := by
    simp only [clampedFields_cons, clampedFields_nil, Nat.add_zero]
    rfl
  rw [clampedFields_cons, clampedFields_flatMap]
  simp [hclass, loadRecordClamps, clampNat_zero, List.range_succ, Nat.add_assoc]

/-! ### The link record (R151) -/

theorem readLinkRecord_eq (m : Memory) : readLinkRecord m =
    (⟨min 2 (m.u8At 0x1A0), within 1 31 (m.u8At 0x1A1), within 1 15 (m.u8At 0x1A2), within 1 8 (m.u8At 0x1A3),
        within 1 8 (m.u8At 0x1A4), within 1 8 (m.u8At 0x1A5)⟩,
      clampedFields [(m.u8At 0x1A0, min 2 (m.u8At 0x1A0)), (m.u8At 0x1A1, within 1 31 (m.u8At 0x1A1)),
        (m.u8At 0x1A2, within 1 15 (m.u8At 0x1A2)), (m.u8At 0x1A3, within 1 8 (m.u8At 0x1A3)),
        (m.u8At 0x1A4, within 1 8 (m.u8At 0x1A4)), (m.u8At 0x1A5, within 1 8 (m.u8At 0x1A5))]) := by
  simp (disch := decide) only [readLinkRecord, clampNat_eq_within, within_zero, clampedFields_cons, clampedFields_nil,
    Nat.add_assoc, Nat.add_zero, Nat.reduceAdd]

/-! ### The lane record (R14, R12) -/

/-- A lane with max_step is FRONT or REAR, so the bytes read for it are those R184 gives its record. -/
theorem readLaneSettings_eq (m : Memory) {l : LaneId} {old : LaneSettings}
    (h : old.maxStep.isSome = true ↔ l = .front ∨ l = .rear) :
    readLaneSettings m l old = (laneSettingsIn m l, clampedFields (laneFields m l)) := by
  unfold readLaneSettings laneRecordAt
  cases hstep : old.maxStep with
  | none =>
    have hl : ¬(l = .front ∨ l = .rear) := by simpa [hstep] using h
    simp (disch := decide) only [laneSettingsIn, laneFields, if_neg hl, clampNat_eq_within, Nat.add_right_comm _ (8 * _),
      Nat.reduceAdd, List.append_nil, clampedFields_cons, clampedFields_nil, Nat.add_assoc, Nat.add_zero]
  | some step =>
    have hl : l = .front ∨ l = .rear := by simpa [hstep] using h
    simp (disch := decide) only [laneSettingsIn, laneFields, if_pos hl, clampNat_eq_within, Nat.add_right_comm _ (8 * _),
      Nat.reduceAdd, clampedFields_append, clampedFields_cons, clampedFields_nil, Nat.add_assoc, Nat.add_zero]

theorem Lanes.mapEach_congr {f g : LaneId → Lane → Lane} {ls : Lanes} (h : ∀ l, f l (ls.get l) = g l (ls.get l)) :
    ls.mapEach f = ls.mapEach g :=
  Lanes.mk.injEq .. |>.mpr ⟨h .imu, h .front, h .rear, h .engine, h .trailer⟩

theorem consistent_readLaneSettings {s : State} (h : LanesConsistent s.lanes) (l : LaneId) :
    readLaneSettings s.ram l (s.lanes.get l).settings = (laneSettingsIn s.ram l, clampedFields (laneFields s.ram l)) := by
  obtain ⟨-, -, -, -, -, -, -, -, -, -, -, hstep, -⟩ := h l
  exact readLaneSettings_eq s.ram hstep

theorem laneClamps_eq {s : State} (h : LanesConsistent s.lanes) :
    laneClamps s = clampedFields (allLanes.flatMap fun l => laneFields s.ram l) := by
  simp only [laneClamps, consistent_readLaneSettings h]
  exact List.countP_flatMap.symm

/-- The lane record adopted: all five lanes take their settings, then the changes of state are reported (R12, R14). -/
theorem adoptLanes_eq {s : State} (h : LanesConsistent s.lanes) : adoptLanes s =
    allLanes.foldl (fun u l => reportLane l (s.lanes.get l).state ((s.lanes.get l).adopt (laneSettingsIn s.ram l)).state u)
      { s with lanes := s.lanes.mapEach fun l x => x.adopt (laneSettingsIn s.ram l) } := by
  have hlanes : (s.lanes.mapEach fun l x => x.adopt (readLaneSettings s.ram l x.settings).1) =
      s.lanes.mapEach fun l x => x.adopt (laneSettingsIn s.ram l) :=
    Lanes.mapEach_congr fun l => by rw [consistent_readLaneSettings h]
  rw [adoptLanes, foldl_updateLane fun l x => x.adopt (readLaneSettings s.ram l x.settings).1, hlanes]
  simp only [consistent_readLaneSettings h]

/-- Settles O30: each record by the equation of the operation that reads it, the lane record through R14's agreement of max_step with
the lane (`LanesConsistent`). -/
theorem recordsReadAndClamped : Obligations.RecordsReadAndClamped := by
  refine ⟨fun _ _ => ⟨rfl, rfl⟩, ⟨fun _ => rfl, fun w => ?_⟩, fun m f hf => ?_, readLinkRecord_eq, fun _ _ => rfl,
    fun s hs => ⟨laneClamps_eq hs, adoptLanes_eq hs⟩⟩
  · exact ⟨w.adopted_inRange, w.adopted_eq, clampPeriod_eq _, w.clamps_eq, w.clamps_eq_zero_iff⟩
  · obtain rfl : f = fun c => (rawFactors m c).clamped := funext fun c => (hf c).trans (rawFactors_clamped m c).symm
    exact ⟨loadRecordOf_class m, rfl, rfl, rfl, rfl, loadRecordClamps_eq m⟩

end Sys2Proof.Machine
end

section
/-! PROOF. The queue of waiting commands: a step takes its front command, and no command stops the part or touches what waits
(spec/95; notes/assumptions/1.md, 2.md, 16.md). -/

namespace Sys2Proof.Machine

/-! ### One step -/

theorem step_idle {s : State} (h : s.pending = []) : step s = .next s := by
  rw [step, h]

theorem step_front {s : State} {c : Instr} {rest : List Instr} (h : s.pending = c :: rest) :
    step s = exec c (s.withPending rest) := by
  rw [step, h]

/-- Settles O1: `step` by the two forms of the queue. -/
theorem stepRunsFrontCommand : Obligations.StepRunsFrontCommand :=
  ⟨fun _ _ _ => step_front, fun _ => step_idle⟩

/-! ### One command -/

/-- Fault and refusal are no outcome of any row. -/
theorem exec_next (c : Instr) (s : State) : ∃ t, exec c s = .next t := by
  cases c <;> exact ⟨_, rfl⟩

theorem withTaken_pending {belongs : Request → Bool} {run : Request → State → State} {s : State}
    (h : ∀ r, (run r s).pending = s.pending) : (withTaken belongs run s).pending = s.pending :=
  withTaken_keeps (P := fun t => t.pending = s.pending) rfl h

theorem softReset_pending (s : State) : (softReset s).pending = s.pending := by
  simp [softReset, powerOn]

/-- Every command leaves the queue as it finds it: an operation of the part by its frame, a reset by the queue it carries over, an event
that cannot arise because nothing changes. -/
theorem exec_pending {c : Instr} {s t : State} (h : exec c s = .next t) : t.pending = s.pending := by
  cases c <;> (injection h with h; subst h)
  case powerOnReset => rfl
  case softReset =>
    split
    · exact softReset_pending s
    · rfl
  case summaryWrite | summaryEnableWrite | registerWriteIgnored => rfl
  case attentionArrival | hostRamWrite | frameStart | computationComplete | linkGrant => simp
  case tableDump => exact withTaken_pending fun r => gapRequest_keeps (P := fun t => t.pending = s.pending) (by simp) (by simp)
  case refusedKind | refusedRange | adoptMode | adoptLoad | adoptLane | adoptLink | clearSticky | clearLane | clearChannelCounts
      | clearNoticeHeader | tableLoad | modeGoDormant | modeGoStandby | modeGoActive | modeGoCalibrate | abandonTransition
      | abandonCapture | channelStop | channelResume | channelRestart | capture =>
    exact withTaken_pending fun r => by simp
  case gapRequestApply | tableDumpDone | laneIdleDetected | laneStartEdge | laneFalseStart | laneWordArrival | messageSent
      | linkIdleDetected | linkStartEdge | linkFalseStart | linkCharacterArrival | ackAddressDiscard | ackArrival | replyTimeout =>
    split <;> simp

/-- Settles O2: every command answers a next state, and the queue stands in it as before. -/
theorem everyCommandAnswers : Obligations.EveryCommandAnswers := fun c s => by
  obtain ⟨t, h⟩ := exec_next c s
  exact ⟨t, h, exec_pending h⟩

end Sys2Proof.Machine
end

section
/-! PROOF. The application of a waiting gap request, by its kind (R25). -/

namespace Sys2Proof.Machine

open Sys2Proof.Safety

theorem applyAdopt_applied {r : Request} {s : State} (hm : s.ram.wf = true) (hslot : r.slot < 16) :
    AdoptApplied r s (applyAdopt r s) := by
  refine ⟨_, _, rfl, rfl, ?_⟩
  rintro mode load lanes link rfl rfl rfl rfl
  have h := applyAdopt_completes (r := r) hm hslot (s := s) rfl
  rwa [adoptNamed, adoptModeLoad_eq] at h

theorem exec_gapRequestApply_idle {s : State}
    (h : s.fcu.inFlight.isSome = true ∨ ∀ r, s.rqe.execution ≠ some ⟨r, .waitingGap⟩) : exec .gapRequestApply s = .next s := by
  have hnone : waitingRequest s = none := by
    refine Option.eq_none_iff_forall_ne_some.mpr fun r hr => ?_
    obtain ⟨hwaits, hidle⟩ := waitingRequest_eq_some hr
    obtain hbusy | hother := h
    · simp [hidle] at hbusy
    · exact hother r hwaits
  simp only [exec, execGapRequestApply, hnone]

theorem exec_gapRequestApply_waiting {s : State} {r : Request} (hwaits : s.rqe.execution = some ⟨r, .waitingGap⟩)
    (hidle : s.fcu.inFlight = none) : exec .gapRequestApply s = .next (applyWaiting r s) := by
  simp only [exec, execGapRequestApply, waitingRequest, hwaits, hidle]

/-- The kind of the waiting request chooses what is applied (R25, R163). -/
theorem applyWaiting_of_kind (r : Request) (s : State) :
    (r.kind = 1 → applyWaiting r s = applyAdopt r s) ∧ (r.kind = 6 → applyWaiting r s = applyClear r s) ∧
      (r.kind = 2 → applyWaiting r s = applyLoad r s) ∧ (r.kind = 3 → applyWaiting r s = beginDump r s) := by
  refine ⟨fun h => ?_, fun h => ?_, fun h => ?_, fun h => ?_⟩ <;>
    simp [applyWaiting, h, kindAdopt, kindClear, kindTableLoad, kindTableDump]

/-- Settles O31: the kind chooses what is applied, and each application is what the lemma about it says. -/
theorem gapRequestApplied : Obligations.GapRequestApplied := by
  refine ⟨fun s => exec_gapRequestApply_idle, fun s r hwaits hidle hm hslot => ?_⟩
  obtain ⟨hadopt, hclear, hload, hdump⟩ := applyWaiting_of_kind r s
  refine ⟨_, exec_gapRequestApply_waiting hwaits hidle, fun hkind => ?_, fun hkind => ?_, fun hkind => ?_, hdump⟩
  · exact hadopt hkind ▸ applyAdopt_applied hm hslot
  · exact hclear hkind ▸ applyClear_applied hm hslot
  · exact hload hkind ▸ applyLoad_applied hm hslot

end Sys2Proof.Machine
end

section
/-! PROOF. The cause bits, the escalation and the verdicts of a computation, each by the condition of its stage (R28, R30, R31). -/

namespace Sys2Proof.Machine

open Sys2Proof.Safety

/-! ### Bytes of eight conditions -/

theorem byteOfBits_bits (b0 b1 b2 b3 b4 b5 b6 b7 : Bool) : (List.range 8).map (byteOfBits b0 b1 b2 b3 b4 b5 b6 b7).getLsbD =
    [b0, b1, b2, b3, b4, b5, b6, b7] := by
  revert b0 b1 b2 b3 b4 b5 b6 b7
  decide

/-- The bits of the byte, one by one. -/
theorem byteOfBits_getLsbD (b0 b1 b2 b3 b4 b5 b6 b7 : Bool) : ∀ v, byteOfBits b0 b1 b2 b3 b4 b5 b6 b7 = v →
    v.getLsbD 0 = b0 ∧ v.getLsbD 1 = b1 ∧ v.getLsbD 2 = b2 ∧ v.getLsbD 3 = b3 ∧ v.getLsbD 4 = b4 ∧ v.getLsbD 5 = b5 ∧
      v.getLsbD 6 = b6 ∧ v.getLsbD 7 = b7 := by
  rintro v rfl
  simpa [List.range_succ] using byteOfBits_bits b0 b1 b2 b3 b4 b5 b6 b7

/-- The eight cause bits, joined in the order of the stages, stand each in its own place (R28). -/
theorem causeBits_eq (lean tau slip low held lost reg rate : Bool) :
    0 ||| whenBit rate causeRateClamp ||| whenBit tau causeTauClamp ||| whenBit lean causeLeanClamp ||| whenBit slip causeSlipSat
      ||| whenBit low causeSpeedLow ||| whenBit reg causeRegSat ||| whenBit held causeInputHeld ||| whenBit lost causeInputLost =
    byteOfBits lean tau slip low held lost reg rate := by
  revert lean tau slip low held lost reg rate
  decide

/-! ### The causes (R28) -/

theorem clampInt_ne_iff {lo hi : Int} (v : Int) (h : lo ≤ hi) : clampInt lo hi v ≠ v ↔ v < lo ∨ hi < v := by
  rw [clampInt_eq_max_min v h]
  omega

/-- The causes of a computation that starts with none: C0 to C7, each the condition its stage found. -/
theorem compute_causes {c : Computation} (t : Table) (h : c.causes = 0) : byteOfBits (compute c t).lean.leanClamped
    (compute c t).lean.tauClamped (slipOf (compute c t).speeds.front (compute c t).speeds.rear c.mode.slipVMin).2.2
    ((slipOf (compute c t).speeds.front (compute c t).speeds.rear c.mode.slipVMin).1 == .speedLow) (anyHeld c.snapshot)
    (inputLost c.snapshot) (c.stateAtStart == .active && (compute c t).reduction == 1024) (compute c t).rates.clamped =
      (compute c t).causes := by
  rw [← causeBits_eq, ← h]
  rfl

/-- LEAN_CLAMP (R50). -/
theorem leanClamped_iff (c : Computation) (t : Table) : (compute c t).lean.leanClamped = true ↔
    leanUnclamped c (compute c t) < -6500000 ∨ 6500000 < leanUnclamped c (compute c t) := by
  have hbeyond := clampInt_ne_iff (lo := -leanLimit) (hi := leanLimit) (leanUnclamped c (compute c t)) (by decide)
  rw [leanUnclamped_eq] at hbeyond ⊢
  exact decide_eq_true_iff.trans hbeyond

/-- TAU_CLAMP (R46). -/
theorem tauClamped_iff (c : Computation) (t : Table) : (compute c t).lean.tauClamped = true ↔
    ∃ v, (compute c t).lean.band = .kinematic ∧ (compute c t).speeds.vRef = some v ∧
      9216 < kinematicTangent (compute c t).rates.yaw v := by
  have hband := (compute_lean c t).1.trans (chooseBand_eq _ _ _ _ _)
  have htau : (compute c t).lean.tauClamped = (bandTau (compute c t).lean.band (compute c t).rates.yaw
    ((compute c t).speeds.vRef.getD 0) (c.snapshot.imu.signed 3) (c.snapshot.imu.signed 4)).2 := rfl
  rw [htau]
  cases hb : (compute c t).lean.band with
  | none | gravity => simp [bandTau]
  | kinematic =>
    cases hv : (compute c t).speeds.vRef with
    | none => simp [hb, hv] at hband
    | some v =>
      simp only [bandTau, true_and, Option.some.injEq, exists_eq_left']
      exact decide_eq_true_iff

/-- SLIP_SAT (R84). -/
theorem slipSaturated_iff (front rear : Option Nat) (vMin : Nat) : (slipOf front rear vMin).2.2 = true ↔
    ∃ f w, front = some f ∧ rear = some w ∧ vMin ≤ f ∧ 999 < (slipQuotient f w).natAbs := by
  obtain _ | f := front
  · simp [slipOf]
  obtain _ | w := rear
  · simp [slipOf]
  have hbeyond := clampInt_ne_iff (lo := -999) (hi := 999) (slipQuotient f w) (by decide)
  have hraw : rawSlip w f = slipQuotient f w := rfl
  simp only [slipOf, hraw, Option.some.injEq, exists_and_left, exists_eq_left']
  split
  · next hlow => simp [Nat.not_le.mpr hlow]
  · next hlow =>
    rw [decide_eq_true_iff, hbeyond]
    omega

/-- SPEED_LOW (R83). -/
theorem speedLow_iff (front rear : Option Nat) (vMin : Nat) : ((slipOf front rear vMin).1 == .speedLow) = true ↔
    ∃ f w, front = some f ∧ rear = some w ∧ f < vMin := by
  obtain _ | f := front
  · simp [slipOf]
  obtain _ | w := rear
  · simp [slipOf]
  simp only [slipOf, Option.some.injEq, exists_and_left, exists_eq_left', beq_iff_eq]
  split <;> simp_all

theorem LaneView.gone_iff (v : LaneView) : v.gone = true ↔ v.state = .lost ∨ v.state = .silent := by
  unfold gone available
  cases v.state <;> decide

/-- INPUT_HELD. -/
theorem anyHeld_iff (p : Snapshot) : anyHeld p = true ↔ p.imu.state = .held ∨ p.front.state = .held ∨ p.rear.state = .held ∨
    p.engine.state = .held ∨ p.trailer.state = .held := by
  simp only [anyHeld, Bool.or_eq_true, beq_iff_eq, or_assoc]

/-- INPUT_LOST. -/
theorem inputLost_iff (p : Snapshot) : inputLost p = true ↔ (p.imu.state = .lost ∨ p.imu.state = .silent) ∨
    (p.front.state = .lost ∨ p.front.state = .silent) ∨ (p.rear.state = .lost ∨ p.rear.state = .silent) := by
  simp only [inputLost, Bool.or_eq_true, LaneView.gone_iff, or_assoc]

theorem rateClamps_iff (raw bias : Int) : rateClamps raw bias = true ↔
    raw = 32767 ∨ raw = -32767 ∨ raw = -32768 ∨ 32767 < (raw - bias).natAbs := by
  have hbeyond := clampInt_ne_iff (lo := -32767) (hi := 32767) (raw - bias) (by decide)
  simp only [rateClamps, Bool.or_eq_true, beq_iff_eq, decide_eq_true_eq, correctedRate, hbeyond]
  omega

/-- RATE_CLAMP (R41, R42): one of the two rates, each with its own bias. -/
theorem ratesClamped_iff (imu : LaneView) (biasRoll biasYaw : Int) : (stageRates imu biasRoll biasYaw).clamped = true ↔
    Available imu ∧ ∃ raw bias : Int, (raw = imu.signed 0 ∧ bias = biasRoll ∨ raw = imu.signed 1 ∧ bias = biasYaw) ∧
      (raw = 32767 ∨ raw = -32767 ∨ raw = -32768 ∨ 32767 < (raw - bias).natAbs) := by
  simp only [stageRates, LaneView.available_iff, ← rateClamps_iff]
  split
  · next himu =>
    simp only [himu, true_and, Bool.or_eq_true]
    constructor
    · rintro (hroll | hyaw)
      · exact ⟨_, _, .inl ⟨rfl, rfl⟩, hroll⟩
      · exact ⟨_, _, .inr ⟨rfl, rfl⟩, hyaw⟩
    · rintro ⟨raw, bias, ⟨rfl, rfl⟩ | ⟨rfl, rfl⟩, hclamps⟩
      · exact .inl hclamps
      · exact .inr hclamps
  · next himu => simp [himu]

/-- R30. -/
theorem escalates_iff (mode : ModeRecord) (start : OpState) (causes : Byte) : escalates mode start causes = true ↔
    start = .active ∧ causes &&& mode.escalationMask ≠ 0 := by
  simp only [escalates, Bool.and_eq_true, beq_iff_eq, decide_eq_true_eq]

/-! ### The verdicts (R31) -/

/-- The verdicts of a computation, V0 to V7. -/
theorem compute_verdicts (c : Computation) (t : Table) : byteOfBits
    (decide (c.mode.leanWarn ≤ (compute c t).newLean.natAbs)) (decide (0 < (compute c t).reduction))
    (c.snapshot.engine.available && decide ((compute c t).c < c.snapshot.engine.unsigned 0))
    (c.snapshot.imu.available && decide (((compute c t).d : Int) < -(c.snapshot.imu.signed 2)))
    (decide (c.mode.modeGrade < (compute c t).observer.observed)) (anyDegraded c.snapshot)
    (c.stateAtStart == .limp || (compute c t).escalates) (trailerPresent c.snapshot.trailer != (c.load.cls == .trailer)) =
      (compute c t).verdicts := rfl

/-- V5 (R31). -/
theorem anyDegraded_iff (p : Snapshot) : anyDegraded p = true ↔ (p.imu.enable = true ∧ p.imu.state ≠ .live) ∨
    (p.front.enable = true ∧ p.front.state ≠ .live) ∨ (p.rear.enable = true ∧ p.rear.state ≠ .live) ∨
    (p.engine.enable = true ∧ p.engine.state ≠ .live) ∨ (p.trailer.enable = true ∧ p.trailer.state ≠ .live) := by
  simp only [anyDegraded, LaneView.degraded, Bool.or_eq_true, Bool.and_eq_true, bne_iff_ne, or_assoc]

/-- V7 (R31): the trailer's presence and the adopted class disagree. -/
theorem trailerMismatch_iff (trailer : LaneView) (cls : LoadClass) : (trailerPresent trailer != (cls == .trailer)) = true ↔
    ¬((Available trailer ∧ trailer.slot.getD 0 0 = 1) ↔ cls = .trailer) := by
  rw [← trailerPresent_iff, bne_iff_ne, Ne, Bool.eq_iff_iff, beq_iff_eq]

/-! ### The statement -/

/-- Settles O27: the bits of both bytes are the conditions they are made of, and each condition is what its stage's lemma says. -/
theorem causesAndVerdicts : Obligations.CausesAndVerdicts := by
  constructor
  · rintro c t r hnone rfl
    obtain ⟨h0, h1, h2, h3, h4, h5, h6, h7⟩ := byteOfBits_getLsbD _ _ _ _ _ _ _ _ _ (compute_causes t hnone)
    rw [h0, h1, h2, h3, h4, h5, h6, h7]
    refine ⟨leanClamped_iff c t, tauClamped_iff c t, slipSaturated_iff _ _ _, speedLow_iff _ _ _, anyHeld_iff _, inputLost_iff _, ?_,
      ratesClamped_iff _ _ _, escalates_iff _ _ _⟩
    rw [Bool.and_eq_true, beq_iff_eq, beq_iff_eq]
  · rintro c t r rfl
    obtain ⟨h0, h1, h2, h3, h4, h5, h6, h7⟩ := byteOfBits_getLsbD _ _ _ _ _ _ _ _ _ (compute_verdicts c t)
    rw [h0, h1, h2, h3, h4, h5, h6, h7]
    refine ⟨decide_eq_true_iff, decide_eq_true_iff, ?_, ?_, decide_eq_true_iff, anyDegraded_iff _, ?_, trailerMismatch_iff _ _⟩
    · rw [Bool.and_eq_true, decide_eq_true_iff, LaneView.available_iff]
      exact Iff.rfl
    · rw [Bool.and_eq_true, decide_eq_true_iff, LaneView.available_iff]
      exact Iff.rfl
    · rw [Bool.or_eq_true, beq_iff_eq]

end Sys2Proof.Machine
end

section
/-! PROOF. What a completion makes of the Actuator Link Controller and of the State Controller: its deposits, and the judgement of its
report (R34, R36, R117, R130, R131, R140 to R142). -/

namespace Sys2Proof.Machine

open Sys2Proof.Safety

/-! ### The deposits (R34 step 2, R140 to R142) -/

/-- Each channel takes its own message, and no deposit reads what another one changes. -/
theorem depositAll_alc (frame : Word) (d : DepositSet) (s : State) : (depositAll frame d s).alc = { s.alc with
    engine := deposited s.alc.record.engineInterval ⟨d.source, frame, .torque d.torque⟩ s.alc.engine
    brake := deposited s.alc.record.brakeInterval ⟨d.source, frame, .brake d.brake d.share⟩ s.alc.brake
    trailer := deposited s.alc.record.trailerInterval ⟨d.source, frame, .trailer d.level⟩ s.alc.trailer } := by
  simp only [depositAll, deposit_alc]
  rfl

theorem makeDeposits_none {c : Computation} {r : Results} {s : State} (h : depositSet s.sc.op c.mode r = none) :
    makeDeposits c r s = s := by
  rw [makeDeposits, h]

theorem makeDeposits_alc {c : Computation} {r : Results} {s : State} {d : DepositSet}
    (h : depositSet s.sc.op c.mode r = some d) : (makeDeposits c r s).alc = arbitrated (depositAll c.frame d s).alc := by
  rw [makeDeposits, h]
  exact consulted_eq_arbitrated _

/-- Steps 3 to 6 of a completion leave the ALC as step 2 made it. -/
theorem completeComputation_alc (c : Computation) (s : State) : (completeComputation c s).alc =
    (makeDeposits c (compute c s.table) { s with fcu := s.fcu.step1 (compute c s.table) }).alc := by
  simp [completeComputation, throughReport]

/-- Settles O18: the state of step 2 chooses the deposited values, `depositAll_alc` says what the channels make of them, and the
arbiter is `arbitrated`. -/
theorem completionDeposits : Obligations.CompletionDeposits := by
  constructor
  · rintro s c r hc rfl
    refine ⟨_, exec_computationComplete hc, fun source torque brake share level hvalues => ?_⟩
    have hset : depositSet s.sc.op c.mode (compute c s.table) = some ⟨torque, brake, share, level, source⟩ := by
      cases hop : s.sc.op <;> simp only [hop] at hvalues
      case calibrating | standby | limp =>
        obtain ⟨rfl, rfl, rfl, rfl, rfl⟩ := hvalues
        rfl
      case active =>
        rw [depositSet]
        split_ifs at hvalues ⊢ <;> obtain ⟨rfl, rfl, rfl, rfl, rfl⟩ := hvalues <;> rfl
    rw [completeComputation_alc, makeDeposits_alc (s := { s with fcu := s.fcu.step1 (compute c s.table) }) hset, depositAll_alc]
  · intro s c hc hop
    refine ⟨_, exec_computationComplete hc, ?_, ?_⟩
    · rw [completeComputation_alc, makeDeposits_none (by rw [hop]; rfl)]
    · rw [(completeComputation_afterReport c rfl).1, throughReport, takeReport_eq]
      simp [hop, storeReport]

/-! ### The report judged (R34 step 4, R130, R131) -/

/-- The State Controller with a computation's report and motion data stored (R36). -/
def StateController.reported (x : StateController) (c : Computation) (r : Results) : StateController :=
  { x with lastReport := some (limpReport c r), lastMotion := some (motionData c r) }

/-- The State Controller after a completion: the report judged by the state it finds, with the FCU as steps 1 and 3 left it. -/
theorem completeComputation_sc (c : Computation) (s : State) : (completeComputation c s).sc =
    (takeReport c (compute c s.table) { s with fcu := (beforeReport c (compute c s.table) s).fcu }).sc := by
  rw [(completeComputation_afterReport c rfl).1]
  exact takeReport_sc_congr c _ (by simp) (by rw [beforeReport_fcu, unitNotices_fcu]; simp)

section
variable (c : Computation) (r : Results) {s : State}

/-- Where no report is judged it is stored and nothing more. -/
theorem takeReport_sc_stored (h : s.sc.op = .dormant ∨ s.sc.op = .standby ∨ s.sc.op = .calibrating ∧ c.calFrame = false) :
    (takeReport c r s).sc = s.sc.reported c r := by
  rw [takeReport_eq]
  obtain h | h | ⟨h, hcal⟩ := h <;> rw [h]
  · rfl
  · rfl
  · dsimp only
    rw [hcal]
    rfl

/-- A report judged in ACTIVE (R130). -/
theorem takeReport_sc_active (hop : s.sc.op = .active) : (takeReport c r s).sc =
    if (limpReport c r).imuUnavailable || (limpReport c r).referenceUnavailable || (limpReport c r).escalation then
      { s.sc.reported c r with op := .limp, recovery := 0 }
    else s.sc.reported c r := by
  have henter : (s.sc.reported c r).enter .limp = { s.sc.reported c r with op := .limp, recovery := 0 } := by
    simp [StateController.enter]
  rw [takeReport_eq, hop, ← henter]
  dsimp only
  rw [apply_ite State.sc, changeState_sc]
  rfl

theorem recoveryAfter_eq (f : LimpReport) (n : Nat) : recoveryAfter f n =
    if f.imuUnavailable || f.referenceUnavailable || f.maskedCause || f.escalation then 0 else min 65535 (n + 1) := by
  obtain ⟨imu, reference, masked, escalation⟩ := f
  cases imu <;> cases reference <;> cases masked <;> cases escalation <;> rfl

/-- A report judged in LIMP moves the recovery count, and a full count with the latch clear enters ACTIVE (R131). -/
theorem takeReport_sc_limp (hop : s.sc.op = .limp) : (takeReport c r s).sc =
    if s.fcu.mode.recoveryFrames ≤ recoveryAfter (limpReport c r) s.sc.recovery ∧ s.fcu.escLatch = false then
      { s.sc.reported c r with op := .active, recovery := 0, activeEntered := true }
    else { s.sc.reported c r with recovery := recoveryAfter (limpReport c r) s.sc.recovery } := by
  have henter : (s.sc.reported c r).enter .active =
      { s.sc.reported c r with op := .active, recovery := 0, activeEntered := true } := by
    simp [StateController.enter, StateController.reported, hop]
  rw [takeReport_eq, hop, ← henter]
  simp only [recoverFromLimp, apply_ite State.sc, changeState_sc]
  rw [StateController.enter_of_limp (show (storeReport c r s).sc.op = .limp from hop)]
  rfl

end

end Sys2Proof.Machine
end
section
/-! PROOF. The SUMMARY bits that a completion sets, and what it makes of the Request Engine and of the FCU (R34, R157). -/

namespace Sys2Proof.Machine

open Sys2Proof.Safety

/-! ### SUMMARY and the long-running list -/

/-- From `s` to `t` long-running requests may be answered, and REQ_DONE is set exactly if one is; LIMP is set exactly if `limped`;
no bit above LIMP changes, and of the Request Engine nothing but the long-running list (R157). -/
structure Signals (limped : Bool) (s t : State) : Prop where
  engine : t.rqe = { s.rqe with long := t.rqe.long }
  long : t.rqe.long.Sublist s.rqe.long
  done : t.xp.summary.getLsbD 0 = (s.xp.summary.getLsbD 0 || decide (t.rqe.long ≠ s.rqe.long))
  limp : t.xp.summary.getLsbD 3 = (s.xp.summary.getLsbD 3 || limped)
  above : ∀ i, 4 ≤ i → t.xp.summary.getLsbD i = s.xp.summary.getLsbD i

theorem raise_getLsbD (p : ExchangePort) (bit : BitVec 7) (i : Nat) :
    (p.raise bit).summary.getLsbD i = (p.summary.getLsbD i || bit.getLsbD i) := BitVec.getLsbD_or

theorem getLsbD_above {bit : BitVec 7} (h : bit.toNat < 16) {i : Nat} (hi : 4 ≤ i) : bit.getLsbD i = false :=
  Nat.testBit_lt_two_pow (h.trans_le (Nat.pow_le_pow_right (n := 2) Nat.two_pos hi))

theorem Signals.raised {limped : Bool} {s t : State} {bit : BitVec 7} (hrqe : t.rqe = s.rqe) (hxp : t.xp = s.xp.raise bit)
    (hdone : bit.getLsbD 0 = false) (hlimp : bit.getLsbD 3 = limped) (hbelow : bit.toNat < 16) : Signals limped s t where
  engine := by rw [hrqe]
  long := by rw [hrqe]
  done := by simp only [hxp, raise_getLsbD, hdone, hrqe, ne_eq, not_true, decide_false]
  limp := by rw [hxp, raise_getLsbD, hlimp]
  above i hi := by rw [hxp, raise_getLsbD, getLsbD_above hbelow hi, Bool.or_false]

theorem Signals.ofSame {s t : State} (hrqe : t.rqe = s.rqe) (hxp : t.xp.summary = s.xp.summary) : Signals false s t := by
  refine ⟨by rw [hrqe], by rw [hrqe], ?_, ?_, fun i _ => ?_⟩ <;> simp [hrqe, hxp]

theorem Signals.refl (s : State) : Signals false s s := .ofSame rfl rfl

/-- The list only shrinks, so that it differs at the end exactly if it differs after one of the two parts. -/
theorem Signals.trans {p q : Bool} {s t u : State} (hst : Signals p s t) (htu : Signals q t u) : Signals (p || q) s u where
  engine := by rw [htu.engine, hst.engine]
  long := htu.long.trans hst.long
  done := by
    have hends : u.rqe.long = s.rqe.long ↔ t.rqe.long = s.rqe.long ∧ u.rqe.long = t.rqe.long := by
      refine ⟨fun h => ?_, fun ⟨hs, ht⟩ => ht.trans hs⟩
      have hs : t.rqe.long = s.rqe.long := hst.long.antisymm (h ▸ htu.long)
      exact ⟨hs, h.trans hs.symm⟩
    rw [htu.done, hst.done, Bool.or_assoc]
    simp only [ne_eq, hends, ← Bool.decide_or, not_and_or]
  limp := by rw [htu.limp, hst.limp, Bool.or_assoc]
  above i hi := (htu.above i hi).trans (hst.above i hi)

theorem Signals.ite {limped : Bool} {p : Prop} [Decidable p] {s t u : State} (ht : Signals limped s t)
    (hu : Signals limped s u) : Signals limped s (if p then t else u) := by
  split
  · exact ht
  · exact hu

theorem offerNotice_signals (kind : NoticeKind) (subject : Nat) (first second : Word) (s : State) :
    Signals false s (offerNotice kind subject first second s) := by
  have hport : (offerNotice kind subject first second s).xp = s.xp ∨
      (offerNotice kind subject first second s).xp = s.xp.raise noticeNewBit := by
    simp only [offerNotice, noticeOutcome, writeNotice]
    split
    · split
      · exact .inl rfl
      · exact .inr rfl
    · exact .inl rfl
  obtain h | h := hport
  · exact .ofSame rfl (by rw [h])
  · exact .raised rfl h rfl rfl (by decide)

theorem completeLong_signals (owner : LongOwner) (code : ResultCode) (detail : Nat) (payload : List Word) (s : State) :
    Signals false s (completeLong owner code detail payload s) := by
  unfold completeLong
  split
  · exact .refl s
  · next e he =>
    have hshorter : (s.rqe.long.filter fun x => x.owner != owner) ≠ s.rqe.long := by
      intro h
      have hkept := List.filter_eq_self.mp h e (List.mem_of_find?_eq_some he)
      have howner := List.find?_some he
      simp_all
    refine ⟨rfl, List.filter_sublist, ?_, ?_, fun i hi => ?_⟩
    · exact (raise_getLsbD _ reqDoneBit 0).trans (congrArg _ (decide_eq_true hshorter).symm)
    · exact raise_getLsbD _ _ _
    · exact (raise_getLsbD s.xp reqDoneBit i).trans (by rw [getLsbD_above (bit := reqDoneBit) (by decide) hi, Bool.or_false])

theorem changeState_signals (new : OpState) (reason : StateReason) (s : State) :
    Signals (decide (new = .limp)) s (changeState new reason s) := by
  have hentered : Signals false s { s with sc := s.sc.enter new } := .ofSame rfl rfl
  have hnoticed := hentered.trans (offerNotice_signals .state new.code (u32 s.sc.op.code) (u32 reason.code) _)
  simp only [changeState]
  split
  · next hlimp =>
    rw [decide_eq_true hlimp]
    exact hnoticed.trans (.raised (bit := limpBit) rfl rfl rfl rfl (by decide))
  · next hlimp =>
    rw [decide_eq_false hlimp]
    exact hnoticed

/-! ### Steps 1 to 3 -/

theorem supersede_signals (c : ChannelId) (x : Channel) (old msg : Message) (s : State) :
    Signals false s (supersede c x old msg s) := by
  have held (y : Channel) : Signals false s (setChannel c y s) := .ofSame rfl rfl
  exact .ite ((held _).trans (offerNotice_signals _ _ _ _ _)) (held _)

theorem deposit_signals (c : ChannelId) (msg : Message) (s : State) : Signals false s (deposit c msg s) := by
  refine .ite ?_ (.refl s)
  unfold dueDeposit
  dsimp only
  split
  case h_4 | h_5 =>
    split
    · exact supersede_signals _ _ _ _ _
    · exact .ofSame rfl rfl
  all_goals exact .ofSame rfl rfl

theorem makeDeposits_signals (c : Computation) (r : Results) (s : State) : Signals false s (makeDeposits c r s) := by
  unfold makeDeposits
  split
  · exact .refl s
  · exact (((deposit_signals _ _ _).trans (deposit_signals _ _ _)).trans (deposit_signals _ _ _)).trans (.ofSame rfl rfl)

theorem verdictNotices_signals (old new : Byte) (s : State) : Signals false s (verdictNotices old new s) := by
  have edges (vs : List Nat) : ∀ s, Signals false s (vs.foldl (fun t v => verdictNotice old new v t) s) := by
    induction vs with
    | nil => exact Signals.refl
    | cons v rest ih => exact fun s => Signals.trans (.ite (.refl s) (offerNotice_signals _ _ _ _ _)) (ih _)
  exact edges _ s

theorem unitNotices_signals (c : Computation) (r : Results) (s : State) : Signals false s (unitNotices c r s) := by
  have hescalation : Signals false s (escalationNotice c r s) := .ite (offerNotice_signals _ _ _ _ _) (.refl s)
  have hgrade (t : State) : Signals false t (gradeNotice r t) := .ite (.refl t) (offerNotice_signals _ _ _ _ _)
  exact ((hescalation.trans (hgrade _)).trans (verdictNotices_signals _ _ _)).trans (.ofSame rfl rfl)

theorem throughNotices_signals (c : Computation) (r : Results) (s : State) :
    Signals false s (unitNotices c r (makeDeposits c r { s with fcu := s.fcu.step1 r })) := by
  have first : Signals false s { s with fcu := s.fcu.step1 r } := .ofSame rfl rfl
  exact (first.trans (makeDeposits_signals c r _)).trans (unitNotices_signals c r _)

/-! ### Step 4 -/

/-- The notice and the change of state at a calibration's end. -/
theorem announced_signals (kind : NoticeKind) (subject : Nat) (first second : Word) (x : StateController) (new : OpState)
    (reason : StateReason) (s : State) :
    Signals (decide (new = .limp)) s (changeState new reason { offerNotice kind subject first second s with sc := x }) := by
  have ended (t : State) : Signals false t { t with sc := x } := .ofSame rfl rfl
  exact ((offerNotice_signals kind subject first second s).trans (ended _)).trans (changeState_signals new reason _)

theorem failCalibration_signals (why : CalFailure) (target : OpState) (reason : StateReason) (s : State) :
    Signals (decide (target = .limp)) s (failCalibration why target reason s) :=
  (completeLong_signals _ _ _ _ s).trans (announced_signals _ _ _ _ _ target _ _)

theorem succeedCalibration_signals (avg : CalSums) (s : State) :
    Signals (decide (s.sc.thenTarget.getD .standby = .limp)) s (succeedCalibration avg s) := by
  have calibrated : Signals false s { s with fcu := s.fcu.calibrated avg } := .ofSame rfl rfl
  exact (calibrated.trans (completeLong_signals _ _ _ _ _)).trans (announced_signals _ _ _ _ _ _ _ _)

/-- A calibration frame sets LIMP exactly if it ends in LIMP (R116). -/
theorem calibrationFrame_signals (p : Snapshot) {s : State} (hop : s.sc.op = .calibrating) :
    Signals (decide ((calibrationFrame p s).sc.op = .limp)) s (calibrationFrame p s) := by
  have failed (why : CalFailure) (t : State) (ht : Signals false s t) :
      Signals (decide ((failCalibration why s.sc.priorState .calFailed t).sc.op = .limp)) s
        (failCalibration why s.sc.priorState .calFailed t) := by
    rw [failCalibration_sc]
    exact ht.trans (failCalibration_signals why s.sc.priorState .calFailed t)
  have accumulated : Signals false s { s with sc := s.sc.accumulate p.imu } := .ofSame rfl rfl
  rw [calibrationFrame_eq p rfl rfl]
  split
  · exact failed _ _ (.refl s)
  split
  · exact failed _ _ (.refl s)
  split
  · rw [show decide ((s.sc.accumulate p.imu).op = .limp) = false by simp [StateController.accumulate, hop]]
    exact accumulated
  split
  · exact failed _ _ accumulated
  · rw [succeedCalibration_sc]
    exact accumulated.trans (succeedCalibration_signals _ _)

/-- Step 4 sets LIMP exactly if it enters LIMP (R116, R157). -/
theorem takeReport_signals (c : Computation) (r : Results) (s : State) :
    Signals (decide (s.sc.op ≠ .limp ∧ (takeReport c r s).sc.op = .limp)) s (takeReport c r s) := by
  have stored : Signals false s (storeReport c r s) := .ofSame rfl rfl
  have quiet {t : State} (ht : Signals false s t) (h : ¬(s.sc.op ≠ .limp ∧ t.sc.op = .limp)) :
      Signals (decide (s.sc.op ≠ .limp ∧ t.sc.op = .limp)) s t := by
    rwa [decide_eq_false h]
  rw [takeReport_eq]
  cases hop : s.sc.op with
  | dormant | standby => simpa [hop] using quiet stored (by simp [storeReport, hop])
  | calibrating =>
    dsimp only
    split
    · have h := stored.trans (calibrationFrame_signals c.snapshot (s := storeReport c r s) hop)
      simpa using h
    · simpa [hop] using quiet stored (by simp [storeReport, hop])
  | active =>
    dsimp only
    split
    · have h := stored.trans (changeState_signals .limp .limpEntry (storeReport c r s))
      simpa using h
    · simpa [hop] using quiet stored (by simp [storeReport, hop])
  | limp =>
    have counted (n : Nat) : Signals false s { storeReport c r s with sc := { (storeReport c r s).sc with recovery := n } } :=
      .ofSame rfl rfl
    have h : Signals false s (recoverFromLimp (limpReport c r) (storeReport c r s)) :=
      .ite ((counted _).trans (changeState_signals .active .recovery _)) (counted _)
    simpa using h

theorem throughReport_signals (c : Computation) (r : Results) (s : State) :
    Signals (decide (s.sc.op ≠ .limp ∧ (throughReport c r s).sc.op = .limp)) s (throughReport c r s) := by
  have judged := (throughNotices_signals c r s).trans (takeReport_signals c r _)
  simp only [unitNotices_frame, makeDeposits_frame, Bool.false_or] at judged
  exact judged

/-! ### The completion as a whole -/

theorem recordCapture_signals (c : Computation) (r : Results) (s : State) : Signals false s (recordCapture c r s) := by
  have recorded (m : Memory) (k : Option Capture) : Signals false s { s with ram := m, fcu := { s.fcu with capture := k } } :=
    .ofSame rfl rfl
  unfold recordCapture
  split
  · exact .refl s
  split
  · exact recorded s.ram _
  · exact .ite (recorded _ _) ((recorded _ _).trans (completeLong_signals _ _ _ _ _))

/-- A completion sets LIMP exactly if it enters LIMP, and REQ_DONE exactly if it answers a long-running request (R157). -/
theorem completeComputation_signals (c : Computation) (s : State) :
    Signals (decide (s.sc.op ≠ .limp ∧ (completeComputation c s).sc.op = .limp)) s (completeComputation c s) := by
  obtain ⟨u, hu⟩ : ∃ u, throughReport c (compute c s.table) s = u := ⟨_, rfl⟩
  have judged := throughReport_signals c (compute c s.table) s
  rw [hu] at judged
  rw [(completeComputation_afterReport c hu).1, completeComputation_eq hu, publish_eq]
  have published : Signals false u { u with
      ram := writePage u.ram u.fcu.publications (pageBody c (compute c s.table) u)
      fcu := { u.fcu with publications := u.fcu.publications + 2 }, xp := u.xp.raise liveNewBit } :=
    .raised (bit := liveNewBit) rfl rfl rfl rfl (by decide)
  have ended (t : State) : Signals false t { t with fcu := { t.fcu with inFlight := none } } := .ofSame rfl rfl
  have whole := ((judged.trans published).trans (recordCapture_signals c (compute c s.table) _)).trans (ended _)
  simp only [Bool.or_false] at whole
  exact whole

/-! ### The FCU (R29, R30, R40, R85, R99, R103) -/

/-- A calibration frame keeps the FCU unless it ends the calibration with success. -/
theorem calibrationFrame_fcu (p : Snapshot) (s : State) :
    (calibrationFrame p s).fcu = s.fcu ∨ ∃ avg, (calibrationFrame p s).fcu = s.fcu.calibrated avg := by
  rw [calibrationFrame_eq p rfl rfl]
  split
  · exact .inl (by simp)
  split
  · exact .inl (by simp)
  split
  · exact .inl rfl
  split
  · exact .inl (by simp)
  · exact .inr ⟨_, succeedCalibration_fcu _ _⟩

/-- Step 4 keeps the FCU unless it judges a calibration frame. -/
theorem takeReport_fcu (c : Computation) (r : Results) (s : State) : (takeReport c r s).fcu = s.fcu ∨
    (s.sc.op = .calibrating ∧ c.calFrame = true) ∧ ∃ avg, (takeReport c r s).fcu = s.fcu.calibrated avg := by
  rw [takeReport_eq]
  cases hop : s.sc.op with
  | dormant | standby => exact .inl rfl
  | calibrating =>
    dsimp only
    split
    · next hcal => exact (calibrationFrame_fcu c.snapshot (storeReport c r s)).imp id fun h => ⟨⟨rfl, hcal⟩, h⟩
    · exact .inl rfl
  | active =>
    dsimp only
    split
    · exact .inl (by simp [storeReport])
    · exact .inl rfl
  | limp => exact .inl (by simp [storeReport])

theorem throughReport_fcu (c : Computation) (r : Results) (s : State) : (throughReport c r s).fcu = (beforeReport c r s).fcu ∨
    (s.sc.op = .calibrating ∧ c.calFrame = true) ∧ ∃ avg, (throughReport c r s).fcu = (beforeReport c r s).fcu.calibrated avg := by
  have h := takeReport_fcu c r (unitNotices c r (makeDeposits c r { s with fcu := s.fcu.step1 r }))
  simp only [unitNotices_frame, makeDeposits_frame] at h
  exact h

/-- Settles O17: step 1 and the notices leave the FCU as `beforeReport_fcu` says, a calibration's success alone sets more of it, and
the bits of SUMMARY are what `completeComputation_signals` says. -/
theorem completionUnit : Obligations.CompletionUnit := by
  constructor
  · intro s hidle
    simp only [exec, execComputationComplete, completeInFlight, hidle]
  · rintro s c r hc rfl
    have hsignals := completeComputation_signals c s
    have henable := completeInFlight_enable s
    have hfcu := completeComputation_fcu (c := c) (s := s) rfl
    rw [completeInFlight, hc] at henable
    refine ⟨_, exec_computationComplete hc, ?_, ?_, by simp, by simp, by simp, by simp, by simp, hsignals.engine, henable,
      hsignals.done, hsignals.limp, hsignals.above⟩
    · obtain h | ⟨-, avg, h⟩ := throughReport_fcu c (compute c s.table) s <;> rw [h, beforeReport_fcu] at hfcu <;>
        rw [hfcu] <;> rfl
    · intro hframe
      obtain h | ⟨hcal, -⟩ := throughReport_fcu c (compute c s.table) s
      · rw [h, beforeReport_fcu] at hfcu
        rw [hfcu]
        exact ⟨rfl, rfl, rfl, rfl, rfl⟩
      · exact absurd hcal hframe

/-! ### The State Controller (R36, R130, R131) -/

theorem ite_eq_of_eq_ite {α : Type} {p : Prop} [Decidable p] {x a b : α} (h : x = if p then a else b) :
    if p then x = a else x = b := by
  by_cases hp : p <;> simpa [hp] using h

/-- Settles O20: `completeComputation_sc` reduces the State Controller to the report judged, and each state judges it as its lemma says. -/
theorem limpJudged : Obligations.LimpJudged := by
  rintro s c r report motion hc rfl hreport hmotion
  obtain rfl : report = limpReport c (compute c s.table) := hreport
  obtain rfl : motion = motionData c (compute c s.table) := hmotion
  have hsc := completeComputation_sc c s
  refine ⟨_, exec_computationComplete hc, ?_⟩
  cases hop : s.sc.op with
  | dormant => exact hsc.trans (takeReport_sc_stored _ _ (.inl hop))
  | standby => exact hsc.trans (takeReport_sc_stored _ _ (.inr (.inl hop)))
  | calibrating => exact fun hcal => hsc.trans (takeReport_sc_stored _ _ (.inr (.inr ⟨hop, hcal⟩)))
  | active =>
    have hsc := hsc.trans (takeReport_sc_active _ _ hop)
    dsimp only
    split
    · next henters =>
      rw [if_pos henters] at hsc
      refine ⟨hsc, ?_⟩
      rw [(completeComputation_signals c s).limp, hsc, hop]
      exact Bool.or_true _
    · next hstays => exact hsc.trans (if_neg hstays)
  | limp =>
    have hsc := hsc.trans (takeReport_sc_limp _ _ hop)
    simp only [recoveryAfter_eq, beforeReport_fcu] at hsc
    exact ite_eq_of_eq_ite hsc

end Sys2Proof.Machine
end

section
/-! PROOF. The sixteen words of a frame record, each item at its bits (R180, R189). -/

namespace Sys2Proof.Machine

open Sys2Proof.Safety

/-! ### Fields of a word -/

theorem field_getLsbD {width low v i : Nat} (hi : i < 32) : (field width low v).getLsbD i =
    (decide (low ≤ i) && (decide (i - low < width) && v.testBit (i - low))) := by
  rw [field, BitVec.getLsbD_ofNat, Nat.testBit_mul_two_pow, Nat.testBit_mod_two_pow, decide_eq_true hi, Bool.true_and]

/-- A field's bits, all of them or some. -/
@[simp] theorem extract_field {width low v start n : Nat} (hlow : low ≤ start) (hhigh : start + n ≤ low + width)
    (hword : low + width ≤ 32) : (field width low v).extractLsb' start n = BitVec.ofNat n (v / 2 ^ (start - low)) := by
  refine BitVec.eq_of_getLsbD_eq fun i hi => ?_
  rw [BitVec.getLsbD_extractLsb', field_getLsbD (by omega), BitVec.getLsbD_ofNat, Nat.testBit_div_two_pow,
    show i + (start - low) = start + i - low by omega, decide_eq_true (show low ≤ start + i by omega),
    decide_eq_true (show start + i - low < width by omega), Bool.true_and, Bool.true_and]

/-- Bits outside a field. -/
@[simp] theorem extract_otherField {width low v start n : Nat} (hother : start + n ≤ low ∨ low + width ≤ start)
    (hword : start + n ≤ 32) : (field width low v).extractLsb' start n = 0 := by
  refine BitVec.eq_of_getLsbD_eq fun i hi => ?_
  rw [BitVec.getLsbD_extractLsb', field_getLsbD (by omega)]
  simp only [BitVec.ofNat_eq_ofNat, BitVec.getLsbD_zero, Bool.and_eq_false_iff, decide_eq_false_iff_not]
  omega

@[simp] theorem extract_fieldSigned {width low : Nat} (v : Int) (hword : low + width ≤ 32) :
    (fieldSigned width low v).extractLsb' low width = BitVec.ofInt width v := by
  rw [fieldSigned, extract_field le_rfl le_rfl hword, Nat.sub_self, Nat.pow_zero, Nat.div_one, BitVec.ofNat_toNat,
    BitVec.setWidth_eq]

@[simp] theorem extract_otherFieldSigned {width low start n : Nat} (v : Int) (hother : start + n ≤ low ∨ low + width ≤ start)
    (hword : start + n ≤ 32) : (fieldSigned width low v).extractLsb' start n = 0 := extract_otherField hother hword

@[simp] theorem extract_or (v w : Word) (start n : Nat) :
    (v ||| w).extractLsb' start n = v.extractLsb' start n ||| w.extractLsb' start n := by
  refine BitVec.eq_of_getLsbD_eq fun i _ => ?_
  simp only [BitVec.getLsbD_or, BitVec.getLsbD_extractLsb', Bool.and_or_distrib_left]

theorem testBit_bitOf (b : Bool) : (bitOf b).testBit 0 = b := by
  cases b <;> rfl

/-- The bit of a field one bit wide, beside other fields. -/
theorem getLsbD_of_extract {w : Word} {i v : Nat} (h : w.extractLsb' i 1 = BitVec.ofNat 1 v) : w.getLsbD i = v.testBit 0 := by
  have hbit := congrArg (·.getLsbD 0) h
  simpa only [BitVec.getLsbD_extractLsb', BitVec.getLsbD_ofNat, Nat.add_zero, Nat.zero_lt_one, decide_true, Bool.true_and] using hbit

/-! ### The lane states, two bits a lane -/

theorem packedLaneStates_parts (p : Snapshot) : BitVec.ofNat 2 (packedLaneStates p) = BitVec.ofNat 2 p.imu.state.code ∧
    BitVec.ofNat 2 (packedLaneStates p / 4) = BitVec.ofNat 2 p.front.state.code ∧
    BitVec.ofNat 2 (packedLaneStates p / 16) = BitVec.ofNat 2 p.rear.state.code ∧
    BitVec.ofNat 2 (packedLaneStates p / 64) = BitVec.ofNat 2 p.engine.state.code ∧
    BitVec.ofNat 2 (packedLaneStates p / 256) = BitVec.ofNat 2 p.trailer.state.code := by
  have hcode (x : LaneState) : x.code < 4 := by cases x <;> decide
  have himu := hcode p.imu.state
  have hfront := hcode p.front.state
  have hrear := hcode p.rear.state
  have hengine := hcode p.engine.state
  have htrailer := hcode p.trailer.state
  refine ⟨?_, ?_, ?_, ?_, ?_⟩ <;> refine BitVec.eq_of_toNat_eq ?_ <;>
    simp only [packedLaneStates, BitVec.toNat_ofNat] <;> omega

end Sys2Proof.Machine
end

section
/-! PROOF. Step 6 of a completion: the entry a frame record is written into, and the answer of a capture that ends (R35, R169, R179). -/

namespace Sys2Proof.Machine

open Sys2Proof.Safety

/-! ### Step 6 with a capture running -/

section
variable (c : Computation) (r : Results) {s : State} {k : Capture} (hk : s.fcu.capture = some k)
include hk

/-- A capture accepted during this computation writes nothing, and begins with the next (R169). -/
theorem recordCapture_skips (hskip : k.skipCurrent = true) :
    recordCapture c r s = { s with fcu := { s.fcu with capture := some { k with skipCurrent := false } } } := by
  simp only [recordCapture, hk]
  exact if_pos hskip

variable (hskip : k.skipCurrent = false)
include hskip

theorem recordCapture_goesOn (hmore : k.next + 1 < k.count) : recordCapture c r s = { s with
    ram := s.ram.writeWords (captureWord k.next) (frameRecord c r s.sc.op)
    fcu := { s.fcu with capture := some (k.advanced c.frame) } } := by
  simp only [recordCapture, hk, hskip]
  exact if_pos hmore

theorem recordCapture_ends (hlast : ¬k.next + 1 < k.count) : recordCapture c r s =
    completeLong .capture .ok k.count (capturePayload (k.advanced c.frame)) { s with
      ram := s.ram.writeWords (captureWord k.next) (frameRecord c r s.sc.op), fcu := { s.fcu with capture := none } } := by
  simp only [recordCapture, hk, hskip]
  exact if_neg hlast

variable (hslots : ∀ e ∈ s.rqe.long, e.slot < 16)
include hslots

/-- No word of the capture area is stored but those of the entry, where the record stands: the answer of a capture that ends lies in
the request board. -/
theorem recordCapture_area (hm : s.ram.wf = true) (hnext : k.next < 32) :
    (∀ i, i < 16 → (recordCapture c r s).ram.readWord (captureWord k.next + i) = (frameRecord c r s.sc.op).getD i 0) ∧
      ∀ i, 1216 ≤ i → ¬(captureWord k.next ≤ i ∧ i < captureWord k.next + 16) →
        (recordCapture c r s).ram.readWord i = s.ram.readWord i := by
  have hkept {i : Nat} (hi : 1216 ≤ i) : (recordCapture c r s).ram.readWord i =
      (s.ram.writeWords (captureWord k.next) (frameRecord c r s.sc.op)).readWord i := by
    by_cases hmore : k.next + 1 < k.count
    · rw [recordCapture_goesOn c r hk hskip hmore]
    · rw [recordCapture_ends c r hk hskip hmore]
      refine Memory.readWord_congr fun a ha => (completeLong_reports .capture .ok k.count (payload := capturePayload _)
        (Nat.le_of_ble_eq_true rfl) _).bytes a ?_ ?_
      · unfold NoticePlace
        omega
      · rintro ⟨e, he, hplace⟩
        have := hslots e he
        unfold slotWord at hplace
        omega
  refine ⟨fun i hi => ?_, fun i hlow hother => ?_⟩
  · rw [hkept (by unfold captureWord; omega)]
    exact Memory.readWord_writeWords_at _ _ _ hm hi (by unfold captureWord Config.ramWords; omega)
  · rw [hkept hlow]
    refine Memory.readWord_writeWords_ne _ _ _ _ ?_
    rw [show (frameRecord c r s.sc.op).length = 16 from rfl]
    omega

/-- The request of a capture that ends is answered with the records written and the first frame number (R165, R179, R187). -/
theorem recordCapture_answer (hm : s.ram.wf = true) (hlast : k.next + 1 = k.count) {e : LongEntry}
    (he : longEntryOf s.rqe.long .capture = some e) :
    SlotAnswered e .ok k.count [u32 k.count, if k.next = 0 then c.frame else k.first.getD 0] (recordCapture c r s) := by
  have hpayload : capturePayload (k.advanced c.frame) = [u32 k.count, if k.next = 0 then c.frame else k.first.getD 0] := by
    rw [← hlast]
    unfold capturePayload Capture.advanced
    split <;> rfl
  rw [recordCapture_ends c r hk hskip (by omega), hpayload]
  exact completeLong_answered .ok k.count (Memory.writeWords_wf _ _ hm) he (hslots e (List.mem_of_find?_eq_some he))
    (Nat.le_of_ble_eq_true rfl)

end

/-! ### The part when its frame record is due -/

/-- The part of a completion after step 5. -/
def beforeRecord (c : Computation) (s : State) : State := publish c (compute c s.table) (throughReport c (compute c s.table) s)

theorem takeReport_entry (c : Computation) (r : Results) (s : State) :
    longEntryOf (takeReport c r s).rqe.long .capture = longEntryOf s.rqe.long .capture := by
  rw [takeReport_eq]
  cases s.sc.op with
  | dormant | standby => rfl
  | calibrating =>
    dsimp only
    split
    · exact (calibrationFrame_capture c.snapshot (storeReport c r s)).2
    · rfl
  | active =>
    dsimp only
    split <;> simp [storeReport]
  | limp => simp [storeReport]

section
variable (c : Computation) {s : State}

theorem completeComputation_beforeRecord : completeComputation c s = { recordCapture c (compute c s.table) (beforeRecord c s) with
    fcu := { (recordCapture c (compute c s.table) (beforeRecord c s)).fcu with inFlight := none } } := rfl

/-- Steps 1 to 5 leave the running capture, its request, and the capture area (R34). -/
theorem beforeRecord_keeps (hslots : ∀ e ∈ s.rqe.long, e.slot < 16) : (beforeRecord c s).fcu.capture = s.fcu.capture ∧
    longEntryOf (beforeRecord c s).rqe.long .capture = longEntryOf s.rqe.long .capture ∧
    (∀ e ∈ (beforeRecord c s).rqe.long, e.slot < 16) ∧
    ∀ i, 1216 ≤ i → (beforeRecord c s).ram.readWord i = s.ram.readWord i := by
  obtain ⟨hlong, -, hcapture, hbytes⟩ := throughReport_reports c (compute c s.table) s
  have hentry : longEntryOf (throughReport c (compute c s.table) s).rqe.long .capture = longEntryOf s.rqe.long .capture :=
    (takeReport_entry c _ _).trans (by simp)
  rw [beforeRecord, publish_eq]
  generalize throughReport c (compute c s.table) s = u at hlong hcapture hbytes hentry ⊢
  dsimp only
  refine ⟨hcapture, hentry, fun e he => hslots e (hlong he), fun i hi => Memory.readWord_congr fun a ha => ?_⟩
  refine (writePage_readByte (pageBody_length c _ _) _ (by omega)).trans (hbytes a ?_ ?_)
  · unfold NoticePlace
    omega
  · rintro ⟨e, he, hplace⟩
    have := hslots e he
    unfold slotWord at hplace
    omega

theorem beforeRecord_wf (hm : s.ram.wf = true) : (beforeRecord c s).ram.wf = true :=
  wf_storable.publish c _ (throughReport_wf c _ hm)

end

/-! ### The statement -/

/-- Settles O22: `beforeRecord_keeps` brings the capture to step 6, whose three cases are those of `recordCapture`; a record's items
are read from its fields. -/
theorem captureRecord : Obligations.CaptureRecord := by
  refine ⟨fun s c hc hnone hm hslots => ?_, ?_, ?_⟩
  · obtain ⟨hcapture, -, -, hwords⟩ := beforeRecord_keeps c hslots
    have hidle : recordCapture c (compute c s.table) (beforeRecord c s) = beforeRecord c s := by
      rw [recordCapture, hcapture, hnone]
    refine ⟨_, exec_computationComplete hc, ?_⟩
    rw [completeComputation_beforeRecord, hidle]
    dsimp only
    exact ⟨hcapture.trans hnone, fun i hlow _ => hwords i hlow⟩
  · rintro s c r k hc rfl hk ⟨-, hcount, hnext, -⟩ hm hslots
    obtain ⟨hcapture, hentry, hslots', hwords⟩ := beforeRecord_keeps c hslots
    have hk' := hcapture.trans hk
    have hop : (completeComputation c s).sc.op = (beforeRecord c s).sc.op := by simp [completeComputation_beforeRecord]
    refine ⟨_, exec_computationComplete hc, ?_⟩
    rw [hop, completeComputation_beforeRecord]
    dsimp only
    cases hskip : k.skipCurrent with
    | true =>
      rw [if_pos rfl, recordCapture_skips c _ hk' hskip]
      dsimp only
      exact ⟨rfl, fun i hlow _ => hwords i hlow⟩
    | false =>
      rw [if_neg Bool.false_ne_true]
      have hwf := beforeRecord_wf c hm
      obtain ⟨hentryWords, hotherWords⟩ := recordCapture_area c (compute c s.table) hk' hskip hslots' hwf (by omega)
      refine ⟨hentryWords, fun i hlow _ hother => (hotherWords i hlow hother).trans (hwords i hlow), ?_⟩
      split
      · next hmore =>
        rw [recordCapture_goesOn c _ hk' hskip hmore]
        simp only [Capture.advanced, hskip]
      · next hlast =>
        refine ⟨?_, fun e he => ?_⟩
        · rw [recordCapture_ends c _ hk' hskip hlast]
          simp
        · obtain ⟨hfirst, hresult, hpayload, hdone⟩ := recordCapture_answer c (compute c s.table) hk' hskip hslots' hwf
            (by omega) (hentry.trans he)
          exact ⟨hfirst, hresult, hpayload 0 Nat.two_pos, hpayload 1 Nat.one_lt_two, hdone⟩
  · intro c r opAfter w hw
    have h5 : w 5 = joinFields [field 14 0 r.lean.tau, field 2 14 c.mode.modeGrade, field 2 16 r.observer.observed,
      field 3 18 c.stateAtStart.code, field 3 21 opAfter.code, field 3 24 c.dtMs] := hw 5
    have h6 : w 6 = joinFields [fieldSigned 14 0 r.prevLean, fieldSigned 14 14 r.newLean, field 2 28 r.cls.code,
      field 2 30 r.activeGrade] := hw 6
    have h8 : w 8 = joinFields [field 14 0 (r.speeds.front.getD 0), field 14 14 (r.speeds.rear.getD 0),
      field 2 28 r.speeds.source.code, field 1 30 (bitOf r.present), field 1 31 (c.snapshot.trailer.slot.getD 0 0).toNat] := hw 8
    have h9 : w 9 = joinFields [fieldSigned 11 0 r.slip, field 13 11 r.level, field 8 24 r.observer.bucket] := hw 9
    have h10 : w 10 = joinFields [field 9 0 r.env.slipTarget, field 11 9 r.env.torqueCeiling, field 11 20 r.c,
      field 1 31 (bitOf r.escalates)] := hw 10
    have h11 : w 11 = joinFields [field 11 0 c.rPrev, field 11 11 r.reduction, field 10 22 (packedLaneStates c.snapshot)] := hw 11
    have h12 : w 12 = joinFields [field 14 0 r.env.brakeCeiling, field 14 14 r.d, field 2 28 r.slipStatus.code,
      field 2 30 r.lean.band.code] := hw 12
    obtain ⟨himu, hfront, hrear, hengine, htrailer⟩ := packedLaneStates_parts c.snapshot
    refine ⟨rfl, ⟨hw 0, hw 1, hw 2, hw 3, hw 4⟩, ?_, ⟨?_, ?_, ?_, ?_, hw 7⟩, ⟨?_, ?_, ?_, ?_, ?_⟩, ?_, ⟨?_, ?_, ?_, ?_⟩, ?_, ?_,
      hw 13, hw 14, hw 15⟩
    · simp [h5, joinFields]
    · simp [h6, joinFields]
    · simp [h6, joinFields]
    · simp [h6, joinFields]
    · simp [h6, joinFields]
    · simp [h8, joinFields]
    · simp [h8, joinFields]
    · simp [h8, joinFields]
    · exact (getLsbD_of_extract (by simp [h8, joinFields])).trans (testBit_bitOf r.present)
    · exact getLsbD_of_extract (v := (c.snapshot.trailer.slot.getD 0 0).toNat) (by simp [h8, joinFields])
    · simp [h9, joinFields]
    · simp [h10, joinFields]
    · simp [h10, joinFields]
    · simp [h10, joinFields]
    · exact (getLsbD_of_extract (by simp [h10, joinFields])).trans (testBit_bitOf r.escalates)
    · simp [h11, joinFields, himu, hfront, hrear, hengine, htrailer]
    · simp [h12, joinFields]

end Sys2Proof.Machine
end

section
/-! PROOF. The part as far as notices go: what the Notice Writer reads and stores, and which operations leave it (R175, R176). -/

namespace Sys2Proof.Machine

open Sys2Proof.Safety

/-! ### The words of the notice header and the notice list -/

/-- Word `i` is one of the notice header's two words, or lies in the notice list. -/
def NoticeWord (i : Nat) : Prop := i = headerWord ∨ i = headerWord + 1 ∨ 960 ≤ i ∧ i < 1216

/-- The notice header and the notice list read the same in both memories. -/
structure SameWords (m m' : Memory) : Prop where
  before : m.wf = true
  after : m'.wf = true
  words : ∀ i, NoticeWord i → m'.readWord i = m.readWord i

theorem SameWords.writeWord {m m' : Memory} (h : SameWords m m') (j : Nat) (v : Word) :
    SameWords (m.writeWord j v) (m'.writeWord j v) := by
  refine ⟨Memory.writeWord_wf _ _ h.before, Memory.writeWord_wf _ _ h.after, fun i hi => ?_⟩
  by_cases hj : j < Config.ramWords
  · by_cases hij : i = j
    · rw [hij, Memory.readWord_writeWord_same v hj h.before, Memory.readWord_writeWord_same v hj h.after]
    · rw [Memory.readWord_writeWord_ne _ _ hij, Memory.readWord_writeWord_ne _ _ hij, h.words i hi]
  · rw [Memory.writeWord_beyond _ _ (by omega), Memory.writeWord_beyond _ _ (by omega), h.words i hi]

theorem SameWords.writeWords (vs : List Word) : ∀ {m m' : Memory} (j : Nat), SameWords m m' →
    SameWords (m.writeWords j vs) (m'.writeWords j vs) := by
  induction vs with
  | nil => exact fun _ h => h
  | cons v rest ih => exact fun j h => ih (j + 1) (h.writeWord j v)

/-- Words stored elsewhere. -/
theorem SameWords.beside {m m' : Memory} (h : SameWords m m') (vs : List Word) {j : Nat}
    (hplace : ∀ i, NoticeWord i → i < j ∨ j + vs.length ≤ i) : SameWords m (m'.writeWords j vs) :=
  ⟨h.before, Memory.writeWords_wf vs j h.after, fun i hi =>
    (Memory.readWord_writeWords_ne vs m' j i (hplace i hi)).trans (h.words i hi)⟩

theorem readByte_of_readWord {m m' : Memory} {a : Nat} (ha : a / 4 < 2048) (h : m'.readWord (a / 4) = m.readWord (a / 4)) :
    m'.readByte a = m.readByte a := by
  rw [m'.readWord_eq ha, m.readWord_eq ha] at h
  have byte (k : Nat) := congrArg (byteOf · k) h
  have h0 := byte 0
  have h1 := byte 1
  have h2 := byte 2
  have h3 := byte 3
  simp only [byteOf_pack8_zero, byteOf_pack8_one, byteOf_pack8_two, byteOf_pack8_three] at h0 h1 h2 h3
  obtain hk | hk | hk | hk : a = 4 * (a / 4) ∨ a = 4 * (a / 4) + 1 ∨ a = 4 * (a / 4) + 2 ∨ a = 4 * (a / 4) + 3 := by omega
  all_goals rw [hk]; assumption

/-! ### Two states that notices meet alike -/

/-- `t` is as `s` in all that an offered notice depends on or changes: the notice header and list, the Notice Writer,
SUMMARY.NOTICE_NEW, the adopted notice mask, and the frame number. -/
structure SameNotices (s t : State) : Prop where
  ram : SameWords s.ram t.ram
  nw : t.nw = s.nw
  noticeNew : t.xp.summary.getLsbD 1 = s.xp.summary.getLsbD 1
  mask : t.fcu.mode.noticeMask = s.fcu.mode.noticeMask
  frame : t.ft.frame = s.ft.frame

theorem SameNotices.refl {s : State} (hm : s.ram.wf = true) : SameNotices s s := ⟨⟨hm, hm, fun _ _ => rfl⟩, rfl, rfl, rfl, rfl⟩

/-- What follows and leaves notices alone. -/
theorem SameNotices.congr {s t u : State} (h : SameNotices s t) (hram : u.ram = t.ram) (hnw : u.nw = t.nw)
    (hxp : u.xp.summary.getLsbD 1 = t.xp.summary.getLsbD 1) (hmask : u.fcu.mode.noticeMask = t.fcu.mode.noticeMask)
    (hframe : u.ft = t.ft) : SameNotices s u :=
  ⟨hram ▸ h.ram, hnw.trans h.nw, hxp.trans h.noticeNew, hmask.trans h.mask, (congrArg _ hframe).trans h.frame⟩

/-- A notice offered to both. -/
theorem SameNotices.offer {s t : State} (h : SameNotices s t) (kind : NoticeKind) (subject : Nat) (first second : Word) :
    SameNotices (offerNotice kind subject first second s) (offerNotice kind subject first second t) := by
  obtain ⟨hram, hnw, hnew, hmask, hframe⟩ := h
  have hoccupancy : occupancy t.ram t.nw = occupancy s.ram s.nw := by
    rw [occupancy, occupancy, readCountOf, readCountOf, hram.words _ (.inr (.inl rfl)), hnw]
  unfold offerNotice noticeOutcome
  rw [hmask]
  split
  · unfold writeNotice
    rw [hoccupancy, hnw, hframe]
    split
    · refine ⟨?_, rfl, hnew, hmask, hframe⟩
      dsimp only
      exact hram.writeWord _ _
    · refine ⟨?_, rfl, ?_, hmask, hframe⟩
      · dsimp only
        exact (hram.writeWords _ _).writeWord _ _
      · exact (raise_getLsbD t.xp noticeNewBit 1).trans ((congrArg (· || _) hnew).trans (raise_getLsbD s.xp noticeNewBit 1).symm)
  · exact ⟨hram, hnw, hnew, hmask, hframe⟩

/-! ### The operations that leave notices alone -/

/-- An answer in the request board (R183). -/
theorem SameNotices.completeLong {s t : State} (h : SameNotices s t) (owner : LongOwner) (code : ResultCode) (detail : Nat)
    {payload : List Word} (hslots : ∀ e ∈ t.rqe.long, e.slot < 16) (hp : payload.length ≤ 28) :
    SameNotices s (completeLong owner code detail payload t) := by
  unfold Machine.completeLong
  split
  · exact h
  · next e he =>
    have hslot := hslots e (List.mem_of_find?_eq_some he)
    have hboard {i j n : Nat} (hi : NoticeWord i) (hlow : slotWord e.slot ≤ j) (hhigh : j + n ≤ slotWord e.slot + 32) :
        i < j ∨ j + n ≤ i := by
      unfold NoticeWord headerWord at hi
      unfold slotWord at hlow hhigh
      omega
    have hanswer := ((h.ram.beside payload (j := slotWord e.slot + 4) fun i hi => hboard hi (by omega) (by omega)).beside
      [pack16 (u16 code.code) (u16 detail)] (j := slotWord e.slot + 1) fun i hi =>
        hboard (n := 1) hi (by omega) (by omega)).beside
      [firstWord markDone e.kind e.tag] (j := slotWord e.slot) fun i hi => hboard (n := 1) hi (by omega) (by omega)
    exact ⟨hanswer, h.nw, ((raise_getLsbD t.xp reqDoneBit 1).trans (Bool.or_false _)).trans h.noticeNew, h.mask, h.frame⟩

theorem SameNotices.publish {s t : State} (h : SameNotices s t) (c : Computation) (r : Results) :
    SameNotices s (publish c r t) := by
  have hpage {i j n : Nat} (hi : NoticeWord i) (hlow : 128 ≤ j) (hhigh : j + n ≤ 192) : i < j ∨ j + n ≤ i := by
    unfold NoticeWord headerWord at hi
    omega
  have hbody := pageBody_length c r t
  rw [publish_eq]
  generalize pageBody c r t = body at hbody
  have hwritten := ((h.ram.beside [t.fcu.publications + 1] (j := pageWord) fun i hi => hpage (n := 1) hi (by decide) (by decide)).beside
    body (j := pageWord + 1) fun i hi => hpage hi (by decide) (by rw [hbody]; decide)).beside
    [t.fcu.publications + 2] (j := pageWord) fun i hi => hpage (n := 1) hi (by decide) (by decide)
  exact ⟨hwritten, h.nw, ((raise_getLsbD t.xp liveNewBit 1).trans (Bool.or_false _)).trans h.noticeNew, h.mask, h.frame⟩

theorem SameNotices.recordCapture {s t : State} (h : SameNotices s t) (c : Computation) (r : Results)
    (hslots : ∀ e ∈ t.rqe.long, e.slot < 16) : SameNotices s (recordCapture c r t) := by
  unfold Machine.recordCapture
  split
  · exact h
  · next k _ =>
    have hentry := h.ram.beside (frameRecord c r t.sc.op) (j := captureWord k.next) fun i hi => by
      unfold NoticeWord headerWord at hi
      unfold captureWord
      omega
    have hrecorded (m : Option Capture) : SameNotices s { t with
        ram := t.ram.writeWords (captureWord k.next) (frameRecord c r t.sc.op), fcu := { t.fcu with capture := m } } :=
      ⟨hentry, h.nw, h.noticeNew, h.mask, h.frame⟩
    split
    · exact h.congr rfl rfl rfl rfl rfl
    dsimp only
    split
    · exact hrecorded _
    · exact (hrecorded none).completeLong _ _ _ hslots (Nat.le_of_ble_eq_true rfl)

end Sys2Proof.Machine
end

section
/-! PROOF. The notices of a completion in their order, each step on a state that shows the notices alone (R34, R176). -/

namespace Sys2Proof.Machine

open Sys2Proof.Safety

/-- Some state that meets `P` is as `t` in all that concerns notices. -/
def Shows (P : State → Prop) (t : State) : Prop := ∃ u, P u ∧ SameNotices u t

/-- A deposit that meets no full slot touches the ALC alone (R140). -/
theorem deposit_notFull {c : ChannelId} {msg : Message} {s : State} (h : ¬((msg.frame.toNat % s.alc.record.interval c = 0 ∧
    ((s.alc.get c).state = .pending ∨ (s.alc.get c).state = .outstanding)) ∧ ∃ old, (s.alc.get c).slot = some old)) :
    deposit c msg s = { s with alc := (deposit c msg s).alc } := by
  by_cases hdue : msg.frame.toNat % s.alc.record.interval c = 0
  · rw [deposit, if_pos (by simpa [isDue] using hdue), dueDeposit]
    cases hstate : (s.alc.get c).state with
    | idle | stopping | stopped => rfl
    | pending | outstanding =>
      cases hslot : (s.alc.get c).slot with
      | none => rfl
      | some old => exact absurd ⟨⟨hdue, by simp [hstate]⟩, old, hslot⟩ h
  · rw [deposit, if_neg (by simpa [isDue] using hdue)]

/-- One verdict's edge (R32). -/
theorem verdictNotice_taken (old new : Byte) (k : Nat) {s : State} (hm : s.ram.wf = true) :
    if new.getLsbD k = old.getLsbD k then verdictNotice old new k s = s
    else NoticeTaken .verdict (if new.getLsbD k then k else k + 8) (new.setWidth 32) (old.setWidth 32) s
      (verdictNotice old new k s) := by
  unfold verdictNotice
  split
  · rfl
  · rw [← BitVec.ofNat_toNat 32 new, ← BitVec.ofNat_toNat 32 old]
    exact offerNotice_taken _ _ _ _ hm

section
variable {s t : State} (h : SameNotices s t)
include h

theorem SameNotices.offered (kind : NoticeKind) (subject : Nat) (first second : Word) :
    Shows (NoticeTaken kind subject first second s) (offerNotice kind subject first second t) :=
  ⟨_, offerNotice_taken kind subject first second h.ram.before, h.offer kind subject first second⟩

/-- A change of state offers its STATE notice; SUMMARY.LIMP is no notice's bit (R116). -/
theorem SameNotices.changed (new : OpState) (reason : StateReason) :
    Shows (NoticeTaken .state new.code (u32 t.sc.op.code) (u32 reason.code) s) (changeState new reason t) := by
  have hentered : SameNotices s { t with sc := t.sc.enter new } := h.congr rfl rfl rfl rfl rfl
  obtain ⟨u, htaken, hsame⟩ := hentered.offered .state new.code (u32 t.sc.op.code) (u32 reason.code)
  refine ⟨u, htaken, ?_⟩
  simp only [changeState]
  split
  · exact hsame.congr rfl rfl ((raise_getLsbD _ limpBit 1).trans (Bool.or_false _)) rfl rfl
  · exact hsame

/-! ### The deposits (R34 step 2) -/

/-- A deposit offers a notice where it supersedes a message after a served one, and else touches the ALC alone (R141). -/
theorem SameNotices.deposited {a : LinkController} (c : ChannelId) (msg : Message) (hrecord : t.alc.record = a.record)
    (hchannel : t.alc.get c = a.get c) : Shows (MissedNotice c msg.frame a s) (deposit c msg t) := by
  by_cases hfull : (msg.frame.toNat % a.record.interval c = 0 ∧ ((a.get c).state = .pending ∨ (a.get c).state = .outstanding)) ∧
      ∃ old, (a.get c).slot = some old
  · obtain ⟨⟨hdue, hstate⟩, old, hslot⟩ := hfull
    have hset (x : Channel) : SameNotices s (setChannel c x t) := h.congr rfl rfl rfl rfl rfl
    rw [deposit_full (by rw [hrecord]; exact hdue) (by rw [hchannel]; exact hstate) (by rw [hchannel]; exact hslot), hchannel,
      supersede]
    by_cases hserved : (a.get c).served = true
    · obtain ⟨u, htaken, hsame⟩ := (hset _).offered .missedService c.station (u32 (satInc 65535 (a.get c).missed)) old.frame
      rw [if_pos hserved]
      refine ⟨u, ?_, hsame⟩
      rw [MissedNotice, if_pos ⟨hdue, hstate, hserved⟩, hslot]
      exact htaken
    · rw [if_neg hserved]
      exact ⟨s, by rw [MissedNotice, if_neg fun ⟨_, _, hyes⟩ => hserved hyes], hset _⟩
  · have hquiet : SameNotices s (deposit c msg t) := by
      rw [deposit_notFull (s := t) (by rwa [hrecord, hchannel])]
      exact h.congr rfl rfl rfl rfl rfl
    refine ⟨s, ?_, hquiet⟩
    unfold MissedNotice
    split
    · next hmiss =>
      split
      · next old hslot => exact absurd ⟨⟨hmiss.1, hmiss.2.1⟩, old, hslot⟩ hfull
      · rfl
    · rfl

/-- The three deposits in their order, each by the channel as the completion finds it (notes/assumptions/9.md). -/
theorem SameNotices.depositedAll {c : Computation} {r : Results} (hactive : t.sc.op ≠ .dormant) :
    ∃ u1 u2, MissedNotice .engine c.frame t.alc s u1 ∧ MissedNotice .brake c.frame t.alc u1 u2 ∧
      Shows (MissedNotice .trailer c.frame t.alc u2) (makeDeposits c r t) := by
  obtain ⟨d, hd⟩ : ∃ d, depositSet t.sc.op c.mode r = some d := by
    cases hop : t.sc.op with
    | dormant => exact absurd hop hactive
    | calibrating | standby | active | limp => exact ⟨_, rfl⟩
  obtain ⟨u1, h1, hsame1⟩ := h.deposited (a := t.alc) .engine ⟨d.source, c.frame, .torque d.torque⟩ rfl rfl
  obtain ⟨u2, h2, hsame2⟩ := hsame1.deposited (a := t.alc) .brake ⟨d.source, c.frame, .brake d.brake d.share⟩
    (by rw [deposit_alc]; rfl) (by rw [deposit_alc]; rfl)
  obtain ⟨u3, h3, hsame3⟩ := hsame2.deposited (a := t.alc) .trailer ⟨d.source, c.frame, .trailer d.level⟩
    (by rw [deposit_alc, deposit_alc]; rfl) (by rw [deposit_alc, deposit_alc]; rfl)
  refine ⟨u1, u2, h1, h2, u3, h3, ?_⟩
  rw [makeDeposits, hd]
  exact hsame3.congr rfl rfl rfl rfl rfl

/-! ### The FCU's notices (R34 step 3) -/

theorem SameNotices.escalation (c : Computation) (r : Results) : Shows (fun u => if r.escalates then
    NoticeTaken .escalation (r.causes &&& c.mode.escalationMask).toNat (u32 t.fcu.escCount) (u32 (bitOf t.fcu.escLatch)) s u
    else u = s) (escalationNotice c r t) := by
  unfold escalationNotice
  split
  · exact h.offered _ _ _ _
  · exact ⟨s, rfl, h⟩

theorem SameNotices.grade (r : Results) : Shows (fun u => if r.activeGrade = t.fcu.prevActiveGrade then u = s
    else NoticeTaken .grade r.activeGrade (u32 t.fcu.prevActiveGrade) (u32 r.observer.observed) s u) (gradeNotice r t) := by
  unfold gradeNotice
  split
  · exact ⟨s, rfl, h⟩
  · exact h.offered _ _ _ _

theorem SameNotices.verdictNotice (old new : Byte) (k : Nat) :
    SameNotices (verdictNotice old new k s) (verdictNotice old new k t) := by
  unfold Machine.verdictNotice
  split
  · exact h
  · exact h.offer _ _ _ _

/-- The verdict edges one by one, V0 first (R32). -/
theorem SameNotices.verdicts (old new : Byte) : Shows (VerdictNotices old new s) (verdictNotices old new t) := by
  have hedges (k : Nat) : SameNotices ((List.range k).foldl (fun v j => Machine.verdictNotice old new j v) s)
      ((List.range k).foldl (fun v j => Machine.verdictNotice old new j v) t) := by
    induction k with
    | zero => exact h
    | succ k ih =>
      simp only [List.range_succ, List.foldl_append, List.foldl_cons, List.foldl_nil]
      exact ih.verdictNotice old new k
  refine ⟨_, ⟨fun k => (List.range k).foldl (fun v j => Machine.verdictNotice old new j v) s, rfl, rfl, fun k _ => ?_⟩, hedges 8⟩
  simp only [List.range_succ, List.foldl_append, List.foldl_cons, List.foldl_nil]
  exact verdictNotice_taken old new k (hedges k).ram.before

/-! ### A calibration's end (R34 step 4, R116, R126, R128) -/

/-- The CAL notice and then the change of state, the frame count and the sums set to 0 between them. -/
theorem SameNotices.announced (subject : Nat) (first second : Word) (new : OpState) (reason : StateReason)
    (hop : t.sc.op = .calibrating) : Shows (fun u => ∃ v, NoticeTaken .cal subject first second s v ∧
      NoticeTaken .state new.code 1 (u32 reason.code) v u)
      (changeState new reason { offerNotice .cal subject first second t with sc := t.sc.noCalibration }) := by
  obtain ⟨v, hcal, hsame⟩ := h.offered .cal subject first second
  have hended : SameNotices v { offerNotice .cal subject first second t with sc := t.sc.noCalibration } :=
    hsame.congr rfl rfl rfl rfl rfl
  obtain ⟨u, hstate, hsame'⟩ := hended.changed new reason
  rw [show t.sc.noCalibration.op = .calibrating from hop] at hstate
  exact ⟨u, ⟨v, hcal, hstate⟩, hsame'⟩

variable (hslots : ∀ e ∈ t.rqe.long, e.slot < 16) (hop : t.sc.op = .calibrating)
include hslots hop

theorem SameNotices.failedCalibration (why : CalFailure) : Shows (CalFailedNotices why.code t.sc.calCount t.sc.priorState s)
    (failCalibration why t.sc.priorState .calFailed t) := by
  have hanswered := h.completeLong .calibration .calFailed why.code hslots (payload := [u32 t.sc.calCount])
    (Nat.le_of_ble_eq_true rfl)
  have hsc : (Machine.completeLong .calibration .calFailed why.code [u32 t.sc.calCount] t).sc = t.sc := by simp
  unfold failCalibration calFailedNotice
  generalize Machine.completeLong .calibration .calFailed why.code [u32 t.sc.calCount] t = v at hanswered hsc
  rw [← hsc] at hop ⊢
  exact hanswered.announced why.code (u32 v.sc.calCount) (u32 v.sc.priorState.code) v.sc.priorState .calFailed hop

theorem SameNotices.succeededCalibration (avg : CalSums) : Shows (fun u => ∃ v,
    NoticeTaken .cal 0 (pack16 (toS16 avg.roll) (toS16 avg.yaw)) (toS32 (initialLean avg.ay avg.az)) s v ∧
      NoticeTaken .state (t.sc.thenTarget.getD .standby).code 1 5 v u) (succeedCalibration avg t) := by
  have hcalibrated : SameNotices s { t with fcu := t.fcu.calibrated avg } := h.congr rfl rfl rfl rfl rfl
  have hanswered := hcalibrated.completeLong .calibration .ok 0 hslots
    (payload := [pack16 (toS16 avg.roll) (toS16 avg.yaw), pack16 (toS16 (initialLean avg.ay avg.az)) 0]) (Nat.le_of_ble_eq_true rfl)
  have hsc : (Machine.completeLong .calibration .ok 0 [pack16 (toS16 avg.roll) (toS16 avg.yaw),
    pack16 (toS16 (initialLean avg.ay avg.az)) 0] { t with fcu := t.fcu.calibrated avg }).sc = t.sc := by simp
  unfold succeedCalibration
  dsimp only
  generalize Machine.completeLong .calibration .ok 0 _ { t with fcu := t.fcu.calibrated avg } = v at hanswered hsc
  rw [← hsc] at hop ⊢
  exact hanswered.announced 0 (pack16 (toS16 avg.roll) (toS16 avg.yaw)) (toS32 (initialLean avg.ay avg.az))
    (v.sc.thenTarget.getD .standby) .calSuccess hop

end

/-! ### Steps 1 to 4 -/

/-- Step 4, from the part as steps 1 to 3 leave it with the report stored. -/
theorem throughReport_eq (c : Computation) (r : Results) (s : State) : throughReport c r s =
    match s.sc.op with
    | .dormant | .standby => beforeReport c r s
    | .calibrating => if c.calFrame then calibrationFrame c.snapshot (beforeReport c r s) else beforeReport c r s
    | .active =>
      if (limpReport c r).imuUnavailable || (limpReport c r).referenceUnavailable || (limpReport c r).escalation then
        changeState .limp .limpEntry (beforeReport c r s)
      else beforeReport c r s
    | .limp => recoverFromLimp (limpReport c r) (beforeReport c r s) := by
  have hsc : (unitNotices c r (makeDeposits c r { s with fcu := s.fcu.step1 r })).sc = s.sc := by simp
  rw [throughReport, takeReport_eq, hsc]
  rfl

end Sys2Proof.Machine
end


section
/-! PROOF. The notices of a completion as a whole (R34). -/

namespace Sys2Proof.Machine

open Sys2Proof.Safety

/-! ### Steps 1 to 3 -/

/-- The deposits' notices; a part in DORMANT deposits nothing (R117). -/
theorem makeDeposits_notices (c : Computation) (r : Results) {s t : State} (h : SameNotices s t) : ∃ u1 u2,
    Shows (fun u3 => if t.sc.op = .dormant then u3 = s
      else MissedNotice .engine c.frame t.alc s u1 ∧ MissedNotice .brake c.frame t.alc u1 u2 ∧
        MissedNotice .trailer c.frame t.alc u2 u3) (makeDeposits c r t) := by
  by_cases hop : t.sc.op = .dormant
  · rw [makeDeposits_none (by rw [hop]; rfl)]
    exact ⟨s, s, s, (if_pos hop).mpr rfl, h⟩
  · obtain ⟨u1, u2, h1, h2, u3, h3, hsame⟩ := h.depositedAll (c := c) (r := r) hop
    exact ⟨u1, u2, u3, (if_neg hop).mpr ⟨h1, h2, h3⟩, hsame⟩

/-- The FCU's three kinds of notices, with the FCU as step 1 left it. -/
theorem unitNotices_notices (c : Computation) (r : Results) {s t : State} (h : SameNotices s t) : ∃ u1 u2 u3,
    (if r.escalates then
      NoticeTaken .escalation (r.causes &&& c.mode.escalationMask).toNat (u32 t.fcu.escCount) (u32 (bitOf t.fcu.escLatch)) s u1
    else u1 = s) ∧
    (if r.activeGrade = t.fcu.prevActiveGrade then u2 = u1
    else NoticeTaken .grade r.activeGrade (u32 t.fcu.prevActiveGrade) (u32 r.observer.observed) u1 u2) ∧
    VerdictNotices t.fcu.prevVerdicts r.verdicts u2 u3 ∧ SameNotices u3 (unitNotices c r t) := by
  obtain ⟨u1, h1, hsame1⟩ := h.escalation c r
  obtain ⟨u2, h2, hsame2⟩ := hsame1.grade r
  obtain ⟨u3, h3, hsame3⟩ := hsame2.verdicts t.fcu.prevVerdicts r.verdicts
  have hfcu : (escalationNotice c r t).fcu = t.fcu := by simp
  rw [hfcu] at h2
  exact ⟨u1, u2, u3, h1, h2, h3, hsame3.congr rfl rfl rfl (by simp [unitNotices]) rfl⟩

/-! ### Step 4 -/

section
variable {c : Computation} {r : Results} {s v : State} (h : SameNotices v (beforeReport c r s))
include h

/-- No state is changed. -/
theorem throughReport_quiet (hop : s.sc.op = .dormant ∨ s.sc.op = .standby) : SameNotices v (throughReport c r s) := by
  rw [throughReport_eq]
  obtain hop | hop := hop <;> rw [hop] <;> exact h

/-- LIMP_ENTRY (R130). -/
theorem throughReport_active (hop : s.sc.op = .active) :
    Shows (fun u => if ¬Available c.snapshot.imu ∨ r.speeds.vRef = none ∨ r.escalates = true then NoticeTaken .state 4 3 3 v u
      else u = v) (throughReport c r s) := by
  have henters : ((limpReport c r).imuUnavailable || (limpReport c r).referenceUnavailable || (limpReport c r).escalation) = true ↔
      ¬Available c.snapshot.imu ∨ r.speeds.vRef = none ∨ r.escalates = true := by
    simp [limpReport, LaneView.gone, ← LaneView.available_iff, or_assoc]
  rw [throughReport_eq, hop]
  simp only [henters]
  split
  · have hchanged := h.changed .limp .limpEntry
    rw [show (beforeReport c r s).sc.op = .active by rw [beforeReport_sc]; exact hop] at hchanged
    exact hchanged
  · exact ⟨v, rfl, h⟩

/-- RECOVERY (R131), with the latch as the escalation of this completion leaves it (R30). -/
theorem throughReport_limp (hop : s.sc.op = .limp) {n : Nat}
    (hn : n = if r.escalates ∨ r.speeds.vRef = none ∨ ¬Available c.snapshot.imu ∨ r.causes &&& c.mode.escalationMask ≠ 0 then 0
      else min 65535 (s.sc.recovery + 1)) :
    Shows (fun u => if s.fcu.mode.recoveryFrames ≤ n ∧ s.fcu.escLatch = false ∧
        ¬(r.escalates = true ∧ s.fcu.mode.latchCount ≤ min 255 (s.fcu.escCount + 1)) then NoticeTaken .state 3 4 4 v u
      else u = v) (throughReport c r s) := by
  have hcount : recoveryAfter (limpReport c r) (beforeReport c r s).sc.recovery = n := by
    rw [recoveryAfter_eq, beforeReport_sc, hn]
    refine if_congr ?_ rfl rfl
    simp only [limpReport, LaneView.gone, ← LaneView.available_iff, Bool.or_eq_true, Bool.not_eq_true', Option.isNone_iff_eq_none,
      decide_eq_true_eq, Bool.not_eq_true]
    tauto
  have hlatch : (beforeReport c r s).fcu.escLatch = false ↔ s.fcu.escLatch = false ∧
      ¬(r.escalates = true ∧ s.fcu.mode.latchCount ≤ min 255 (s.fcu.escCount + 1)) := by
    rw [beforeReport_fcu]
    simp [FrameUnit.step1, satInc]
  have hmode : (beforeReport c r s).fcu.mode = s.fcu.mode := by rw [beforeReport_fcu]; rfl
  rw [throughReport_eq, hop]
  simp only [recoverFromLimp, hcount, hlatch, hmode]
  have hcounted : SameNotices v { beforeReport c r s with sc := { (beforeReport c r s).sc with recovery := n } } :=
    h.congr rfl rfl rfl rfl rfl
  split
  · have hchanged := hcounted.changed .active .recovery
    rw [show (beforeReport c r s).sc.op = .limp by rw [beforeReport_sc]; exact hop] at hchanged
    exact hchanged
  · exact ⟨v, rfl, hcounted⟩

/-- A calibration's end (R124 to R126, R128). -/
theorem throughReport_calibrating (hop : s.sc.op = .calibrating) (hslots : ∀ e ∈ s.rqe.long, e.slot < 16) {sums : CalSums}
    (hsums : sums = ⟨s.sc.sums.roll + c.snapshot.imu.signed 0, s.sc.sums.yaw + c.snapshot.imu.signed 1,
      s.sc.sums.ay + c.snapshot.imu.signed 3, s.sc.sums.az + c.snapshot.imu.signed 4⟩) :
    Shows (fun u =>
      if c.calFrame = false then u = v
      else if ¬(c.snapshot.imu.state = .live ∧ c.snapshot.front.state = .live ∧ c.snapshot.rear.state = .live) then
        CalFailedNotices 1 s.sc.calCount (s.sc.prior.getD .dormant) v u
      else if 50 ≤ c.snapshot.front.unsigned 0 ∨ 50 ≤ c.snapshot.rear.unsigned 0 ∨ 500 ≤ (c.snapshot.imu.signed 0).natAbs ∨
          500 ≤ (c.snapshot.imu.signed 1).natAbs then
        CalFailedNotices 2 s.sc.calCount (s.sc.prior.getD .dormant) v u
      else if s.sc.calCount + 1 < 256 then u = v
      else if sums.az.tdiv 256 < 4904 then CalFailedNotices 3 (s.sc.calCount + 1) (s.sc.prior.getD .dormant) v u
      else
        ∃ w, NoticeTaken .cal 0 (pack16 (toS16 (sums.roll.tdiv 256)) (toS16 (sums.yaw.tdiv 256)))
            (BitVec.ofInt 32 (initialLean (sums.ay.tdiv 256) (sums.az.tdiv 256))) v w ∧
          NoticeTaken .state (s.sc.thenTarget.getD .standby).code 1 5 w u) (throughReport c r s) := by
  have hsc := beforeReport_sc c r s
  have hslots : ∀ e ∈ (beforeReport c r s).rqe.long, e.slot < 16 := by rwa [beforeReport_rqe]
  have hframe := calibrationFrame_eq c.snapshot (s := beforeReport c r s) (sums := sums) rfl (by rw [hsc, hsums]; rfl)
  rw [show s.sc.calCount = (beforeReport c r s).sc.calCount by rw [hsc],
    show s.sc.prior.getD .dormant = (beforeReport c r s).sc.priorState by rw [hsc]; rfl,
    show s.sc.thenTarget = (beforeReport c r s).sc.thenTarget by rw [hsc]]
  by_cases hcal : c.calFrame = true
  · have hop' : (beforeReport c r s).sc.op = .calibrating := by rw [hsc]; exact hop
    have haccumulated : SameNotices v { beforeReport c r s with sc := (beforeReport c r s).sc.accumulate c.snapshot.imu } :=
      h.congr rfl rfl rfl rfl rfl
    rw [throughReport_calibrationFrame r hop hcal, hframe]
    simp only [hcal, Bool.true_eq_false, if_false]
    split
    · exact h.failedCalibration hslots hop' .lanes
    split
    · exact h.failedCalibration hslots hop' .motion
    split
    · exact ⟨v, rfl, haccumulated⟩
    split
    · exact haccumulated.failedCalibration hslots hop' .attitude
    · exact haccumulated.succeededCalibration hslots hop' sums.averages
  · rw [throughReport_eq, hop]
    simp only [hcal]
    exact ⟨v, rfl, h⟩

end

/-! ### Steps 5 and 6, and the whole -/

/-- The publication, the frame record and the end of the computation leave notices alone. -/
theorem completeComputation_notices (c : Computation) {s v : State} (hslots : ∀ e ∈ s.rqe.long, e.slot < 16)
    (h : SameNotices v (throughReport c (compute c s.table) s)) : (completeComputation c s).nw = v.nw ∧
      (completeComputation c s).xp.summary.getLsbD 1 = v.xp.summary.getLsbD 1 ∧
      ∀ a, a / 4 = 16 ∨ (960 ≤ a / 4 ∧ a / 4 < 1216) → (completeComputation c s).ram.readByte a = v.ram.readByte a := by
  obtain ⟨u, hu⟩ : ∃ u, throughReport c (compute c s.table) s = u := ⟨_, rfl⟩
  have hlong := (hu ▸ throughReport_reports c (compute c s.table) s).long
  have hpublished := (hu ▸ h).publish c (compute c s.table)
  obtain ⟨hram, hnw, hnew, -, -⟩ := hpublished.recordCapture c (compute c s.table) (by simpa using fun e he => hslots e (hlong he))
  rw [completeComputation_eq hu]
  exact ⟨hnw, hnew, fun a ha => readByte_of_readWord (by omega) (hram.words _ (ha.imp_right .inr))⟩

/-- The escalation count and latch of step 1, as the ESCALATION notice gives them (R30, R33). -/
theorem FrameUnit.step1_escalated (f : FrameUnit) {r : Results} (h : r.escalates = true) :
    (f.step1 r).escCount = min 255 (f.escCount + 1) ∧ u32 (bitOf (f.step1 r).escLatch) =
      if f.escLatch = true ∨ f.mode.latchCount ≤ min 255 (f.escCount + 1) then 1 else 0 := by
  simp only [step1, satInc, h, if_true, Bool.true_and, true_and]
  cases f.escLatch <;> by_cases hcount : f.mode.latchCount ≤ min 255 (f.escCount + 1) <;> simp [hcount, bitOf, u32]

/-- Settles O23: each step's notices are followed on a state that shows the notices alone, and steps 5 and 6 add none. -/
theorem completionNotices : Obligations.CompletionNotices := by
  rintro s c r n sums hc rfl hm hslots hn hsums
  have hstep1 : SameNotices s { s with fcu := s.fcu.step1 (compute c s.table) } :=
    (SameNotices.refl hm).congr rfl rfl rfl rfl rfl
  obtain ⟨u1, u2, u3, hdeposits, hsame3⟩ := makeDeposits_notices c (compute c s.table) hstep1
  obtain ⟨u4, u5, u6, hescalation, hgrade, hverdicts, hsame6⟩ := unitNotices_notices c (compute c s.table) hsame3
  have hreport : SameNotices u6 (beforeReport c (compute c s.table) s) := hsame6.congr rfl rfl rfl rfl rfl
  have hfcu : (makeDeposits c (compute c s.table) { s with fcu := s.fcu.step1 (compute c s.table) }).fcu =
    s.fcu.step1 (compute c s.table) := by simp
  rw [hfcu] at hescalation hgrade hverdicts
  have hescalation : if (compute c s.table).escalates then
      NoticeTaken .escalation ((compute c s.table).causes &&& c.mode.escalationMask).toNat (u32 (min 255 (s.fcu.escCount + 1)))
        (if s.fcu.escLatch = true ∨ s.fcu.mode.latchCount ≤ min 255 (s.fcu.escCount + 1) then 1 else 0) u3 u4
      else u4 = u3 := by
    split at hescalation
    · next hesc =>
      obtain ⟨hcount, hlatch⟩ := s.fcu.step1_escalated hesc
      rw [hcount, hlatch] at hescalation
      rwa [if_pos hesc]
    · next hesc => rwa [if_neg hesc]
  have hends {u7 : State} := completeComputation_notices c (v := u7) hslots
  have hexec := exec_computationComplete hc
  generalize hop : s.sc.op = op at hdeposits ⊢
  cases op with
  | dormant =>
    exact ⟨_, u1, u2, u3, u4, u5, u6, u6, hexec, hdeposits, hescalation, hgrade, hverdicts, rfl,
      hends (throughReport_quiet hreport (.inl hop))⟩
  | standby =>
    exact ⟨_, u1, u2, u3, u4, u5, u6, u6, hexec, hdeposits, hescalation, hgrade, hverdicts, rfl,
      hends (throughReport_quiet hreport (.inr hop))⟩
  | calibrating =>
    obtain ⟨u7, hstep4, hsame7⟩ := throughReport_calibrating hreport hop hslots hsums
    exact ⟨_, u1, u2, u3, u4, u5, u6, u7, hexec, hdeposits, hescalation, hgrade, hverdicts, hstep4, hends hsame7⟩
  | active =>
    obtain ⟨u7, hstep4, hsame7⟩ := throughReport_active hreport hop
    exact ⟨_, u1, u2, u3, u4, u5, u6, u7, hexec, hdeposits, hescalation, hgrade, hverdicts, hstep4, hends hsame7⟩
  | limp =>
    obtain ⟨u7, hstep4, hsame7⟩ := throughReport_limp hreport hop hn
    exact ⟨_, u1, u2, u3, u4, u5, u6, u7, hexec, hdeposits, hescalation, hgrade, hverdicts, hstep4, hends hsame7⟩

end Sys2Proof.Machine
end
